-- ==== Sys2Proof/Word.lean ====
section
/-! DEFINITION. The words of the machine: bytes, channel values, command codes, and the port word, which is a
transaction as an agent presents it, before decoding (spec/30_encoding.md R75, spec/00_scope.md R10 and R11). -/

namespace Sys2Proof

/-- An unsigned 8-bit value (R10). -/
abbrev Byte := BitVec 8

/-- One channel value, 11 bits (R8 `CH_BITS`, R13 "Channel"). -/
abbrev Channel := BitVec 11

/-- The 3-bit command code that selects an operation (R75). -/
abbrev CommandCode := BitVec 3

/-- The undecoded form of one entry of the opcode table, in the table's two formats.
R75: "A transaction is its command code plus its operand sequence", and operands are sequences of unbounded
length, so there is no fixed-width instruction word.
DESIGN CHOICE (notes/assumptions/1.md): the operand sequence is presented as integers, so that a value that is
not a byte, or a channel value wider than 11 bits (R111), can be presented at all.
DESIGN CHOICE (notes/assumptions/2.md): the format `packetType` presents a validated frame to the parser as its
type byte and payload. -/
inductive PortWord where
  /-- Format "operation": a 3-bit command code and the operand sequence. -/
  | operation (code : CommandCode) (operand : List Int)
  /-- Format "packet_type": the type byte F[2] of a validated frame and its payload F[3..L]. -/
  | packetType (type : Byte) (payload : List Byte)
  deriving DecidableEq, Repr

end Sys2Proof
end

