-- ==== Sys2Proof/Config.lean ====
section
/-! DEFINITION. What the source leaves open and one model instance fixes (spec/00_scope.md R9). The fixed constants
of R8 are in Sys2Proof/Machine/Constants.lean; the other open parameter, `BUF_CAP`, decides what FEED does and so
stands in State as data (notes/assumptions/6.md). -/

namespace Sys2Proof

/-- `GPS_ALT_OFFSET : Int`, in raw altitude units. R9: it is OPEN because the source says only "offset scheme as
wire-defined", and no state or result of the block depends on it.
Free: it has no body, so nothing can be proved of its value (notes/assumptions/7.md). -/
opaque Config.gpsAltOffset : Int

end Sys2Proof
end

