-- ==== Sys2Proof/Machine/Constants.lean ====
section
/-! DEFINITION. The fixed constants of spec/00_scope.md R8, each named once. -/

namespace Sys2Proof.Machine

/-- `N_CH`: channels per ChannelVector. -/
abbrev nCh : Nat := 16

/-- `CH_BITS`: bits per channel. -/
abbrev chBits : Nat := 11

/-- `PACKED_LEN`: packed channel bytes. -/
abbrev packedLen : Nat := 22

/-- `SYNC`: the sync byte. -/
abbrev sync : Byte := 0xC8

/-- `CRC_POLY`: the CRC polynomial, its x^8 term implicit. -/
abbrev crcPoly : Byte := 0xD5

/-- `CRC_INIT`: the initial CRC accumulator. -/
abbrev crcInit : Byte := 0x00

/-- `MAX_FRAME_SIZE`: the limit the length byte is compared against (spec/90_conflicts.md C2). -/
abbrev maxFrameSize : Nat := 64

/-- `MIN_LEN`: the smallest length byte the decoder accepts. -/
abbrev minLen : Nat := 2

/-- The most payload bytes a frame can carry: the length byte is at most `maxFrameSize` and counts two bytes more
than the payload (R62, R64: "0 to 62 payload bytes"). -/
abbrev maxPayload : Nat := 62

/-- `T_RC`: RC_CHANNELS_PACKED. -/
abbrev tRc : Byte := 0x16

/-- `T_LS`: LINK_STATISTICS. -/
abbrev tLs : Byte := 0x14

/-- `T_BAT`: BATTERY_SENSOR. -/
abbrev tBat : Byte := 0x08

/-- `T_GPS`: GPS. -/
abbrev tGps : Byte := 0x02

/-- `REQ_LS`: payload bytes LINK_STATISTICS needs. -/
abbrev reqLs : Nat := 10

/-- `REQ_BAT`: payload bytes BATTERY_SENSOR needs. -/
abbrev reqBat : Nat := 7

/-- `REQ_GPS`: payload bytes GPS needs. -/
abbrev reqGps : Nat := 15

end Sys2Proof.Machine
end

