-- ==== Sys2Proof/Syntax.lean ====
section
/-! DEFINITION. The instructions: one constructor for each row of spec/opcode_table.json. The seven operations and
the reserved code are spec/30_encoding.md R75; the five packet types are R66, the arms of PARSE. -/

namespace Sys2Proof

/-- One instruction: a row of the opcode table with its operands. -/
inductive Instr where
  /-- RESET (R220). -/
  | reset
  /-- CHECKSUM of a byte sequence (R101). -/
  | checksum (bytes : List Byte)
  /-- ENCODE of a sequence of channel values, of any count and any width (R111, R112). -/
  | encode (channels : List Int)
  /-- FEED of a chunk of received bytes (R130). -/
  | feed (chunk : List Byte)
  /-- PARSE of a frame (R160). -/
  | parse (frame : List Byte)
  /-- RECEIVE of a chunk of received bytes (R168). -/
  | receive (chunk : List Byte)
  /-- READ of the snapshot (R169). -/
  | read
  /-- RESERVED_111: the reserved command code, with whatever operand was presented (R75, R211). -/
  | reserved111 (operand : List Int)
  /-- TYPE_LINK_STATISTICS: PARSE of the validated frame of type 0x14 with this payload (R161). -/
  | typeLinkStatistics (payload : List Byte)
  /-- TYPE_BATTERY_SENSOR: PARSE of the validated frame of type 0x08 with this payload (R162). -/
  | typeBatterySensor (payload : List Byte)
  /-- TYPE_GPS: PARSE of the validated frame of type 0x02 with this payload (R163). -/
  | typeGps (payload : List Byte)
  /-- TYPE_RC_CHANNELS_PACKED: PARSE of the validated frame of type 0x16 with this payload (R164). -/
  | typeRcChannelsPacked (payload : List Byte)
  /-- TYPE_OTHER: PARSE of the validated frame of any other type with this payload (R164, R67). -/
  | typeOther (type : Byte) (payload : List Byte)
  deriving DecidableEq, Repr

end Sys2Proof
end

