-- ==== Sys2Proof/WellFormed.lean ====
section
/-! DEFINITION. Which instructions the encodings of spec/30_encoding.md can express. An operand of bytes is well
formed by its type, and ENCODE's channel count and widths are checked by its meaning (R111, R112), so only the
packet types carry checks. -/

namespace Sys2Proof

/-- The payload fits in a frame (R64: an accepted frame has 0 to 62 payload bytes). -/
def payloadFits (payload : List Byte) : Bool :=
  decide (payload.length ≤ Machine.maxPayload)

/-- The type byte is none of the four that have a row of their own (R66, the last row). -/
def isOtherType (type : Byte) : Bool :=
  type != Machine.tLs && type != Machine.tBat && type != Machine.tGps && type != Machine.tRc

/-- The instruction has an encoding. -/
def WellFormed : Instr → Bool
  | .reset => true
  | .checksum _ => true
  | .encode _ => true
  | .feed _ => true
  | .parse _ => true
  | .receive _ => true
  | .read => true
  | .reserved111 _ => true
  | .typeLinkStatistics payload => payloadFits payload
  | .typeBatterySensor payload => payloadFits payload
  | .typeGps payload => payloadFits payload
  | .typeRcChannelsPacked payload => payloadFits payload
  | .typeOther type payload => isOtherType type && payloadFits payload

end Sys2Proof
end

