-- ==== Sys2Proof/Decode.lean ====
section
/-! DEFINITION. Decoding a port word to an instruction, total and rejecting by name, then the encoder written from
the same tables (spec/30_encoding.md R75 for command codes, R66 for packet types), then the opcode table's words. -/

namespace Sys2Proof

/-- Why a port word is no instruction. Each is a transaction R75 does not have (notes/assumptions/9.md). -/
inductive DecodeError where
  /-- RESET or READ with an operand: R75 gives them none. -/
  | operandNotEmpty
  /-- A byte-sequence operand with an element outside 0..255. -/
  | operandNotByte
  /-- A payload of more than 62 bytes: no frame carries it (R64). -/
  | payloadTooLong
  deriving DecidableEq, Repr

/-- An operand element read as a byte, if it is one (R10: a byte is 0..255). -/
def byteOfInt (v : Int) : Option Byte :=
  if 0 ≤ v ∧ v < 256 then some (BitVec.ofNat 8 v.toNat) else none

/-- An operand read as a byte sequence, if every element is a byte. -/
def bytesOfOperand : List Int → Option (List Byte)
  | [] => some []
  | v :: vs =>
    match byteOfInt v, bytesOfOperand vs with
    | some b, some bs => some (b :: bs)
    | _, _ => none

/-- A byte sequence as an operand: its elements' values in order. -/
def operandOfBytes (bytes : List Byte) : List Int :=
  bytes.map fun b => (b.toNat : Int)

/-- An operation whose operand is a byte sequence. -/
def withBytes (f : List Byte → Instr) (operand : List Int) : Except DecodeError Instr :=
  match bytesOfOperand operand with
  | some bytes => .ok (f bytes)
  | none => .error .operandNotByte

/-- An operation without operand. -/
def withNothing (i : Instr) : List Int → Except DecodeError Instr
  | [] => .ok i
  | _ :: _ => .error .operandNotEmpty

/-- Format "operation": the command codes of R75. -/
def decodeOperation (code : CommandCode) (operand : List Int) : Except DecodeError Instr :=
  match code.toNat with
  | 0b000 => withNothing .reset operand
  | 0b001 => withBytes .checksum operand
  | 0b010 => .ok (.encode operand)
  | 0b011 => withBytes .feed operand
  | 0b100 => withBytes .parse operand
  | 0b101 => withBytes .receive operand
  | 0b110 => withNothing .read operand
  | _ => .ok (.reserved111 operand)

/-- Format "packet_type": the type bytes of R66; the four rows with a value take precedence over TYPE_OTHER. -/
def decodePacketType (type : Byte) (payload : List Byte) : Except DecodeError Instr :=
  if payloadFits payload then
    .ok (if type = Machine.tLs then .typeLinkStatistics payload
      else if type = Machine.tBat then .typeBatterySensor payload
      else if type = Machine.tGps then .typeGps payload
      else if type = Machine.tRc then .typeRcChannelsPacked payload
      else .typeOther type payload)
  else .error .payloadTooLong

/-- The decoder, total on every port word. -/
def decode : PortWord → Except DecodeError Instr
  | .operation code operand => decodeOperation code operand
  | .packetType type payload => decodePacketType type payload

/-- The port word of an instruction, from the same tables (R75, R66). -/
def encode : Instr → PortWord
  | .reset => .operation 0b000 []
  | .checksum bytes => .operation 0b001 (operandOfBytes bytes)
  | .encode channels => .operation 0b010 channels
  | .feed chunk => .operation 0b011 (operandOfBytes chunk)
  | .parse frame => .operation 0b100 (operandOfBytes frame)
  | .receive chunk => .operation 0b101 (operandOfBytes chunk)
  | .read => .operation 0b110 []
  | .reserved111 operand => .operation 0b111 operand
  | .typeLinkStatistics payload => .packetType 0x14 payload
  | .typeBatterySensor payload => .packetType 0x08 payload
  | .typeGps payload => .packetType 0x02 payload
  | .typeRcChannelsPacked payload => .packetType 0x16 payload
  | .typeOther type payload => .packetType type payload

/-- The port word of a table word `w` of `nbits` bits, numbered as spec/opcode_table.json numbers them.
An operation row has bits 2:0 alone and no operand words, so an 8-bit word below 8 is a command code with an empty
operand; every other word is a type byte in bits 7:0 with its further bytes as payload.
DESIGN CHOICE (notes/assumptions/3.md): the two code spaces overlap at 0..7, and an 8-bit word there is read as a
command code. -/
def tableWord (nbits w : Nat) : PortWord :=
  if nbits ≤ 8 ∧ w < 8 then .operation (BitVec.ofNat 3 w) []
  else .packetType (BitVec.ofNat 8 w)
    ((List.range (nbits / 8 - 1)).map fun k => BitVec.ofNat 8 (w >>> (8 * (k + 1))))

/-- The instruction the decoder reads from a table word. -/
def decodeTableWord (nbits w : Nat) : Option Instr :=
  match decode (tableWord nbits w) with
  | .ok i => some i
  | .error _ => none

end Sys2Proof
end

