-- ==== Sys2Proof/Machine/State.lean ====
section
/-! DEFINITION. The state of the block and of the port it is driven through. The block's own persistent state is the
pair (buf, snap) (spec/10_state.md R20); the other fields are the model's: the capacity parameter, the result port, and
the agents' queues with the order in which their transactions are taken. -/

namespace Sys2Proof.Machine

/-- A frame is a byte sequence (R60). -/
abbrev Frame := List Byte

/-- The 19 fields of the snapshot, by the names of spec/10_state.md R25. -/
inductive Field where
  | ls_uplink_rssi_1 | ls_uplink_rssi_2 | ls_uplink_link_quality | ls_uplink_snr | ls_active_antenna
  | ls_rf_mode | ls_uplink_tx_power | ls_downlink_rssi | ls_downlink_link_quality | ls_downlink_snr
  | bat_voltage | bat_current | bat_capacity | bat_remaining
  | gps_latitude | gps_longitude | gps_ground_speed | gps_heading | gps_altitude
  deriving DecidableEq, Repr

/-- The telemetry snapshot, a register file of 19 fields, each absent (`none`) or a value (R25, R26). A field `uN` is
an N-bit word; a field `sN` is the signed integer R25 names, whose range is kept by every step
(notes/assumptions/12.md). -/
structure Snapshot where
  /-- u8, "as sent". -/
  ls_uplink_rssi_1 : Option (BitVec 8)
  /-- u8, "as sent". -/
  ls_uplink_rssi_2 : Option (BitVec 8)
  /-- u8, in %. -/
  ls_uplink_link_quality : Option (BitVec 8)
  /-- s8, "as sent". -/
  ls_uplink_snr : Option Int
  /-- u8, "as sent". -/
  ls_active_antenna : Option (BitVec 8)
  /-- u8, "as sent". -/
  ls_rf_mode : Option (BitVec 8)
  /-- u8, "as sent". -/
  ls_uplink_tx_power : Option (BitVec 8)
  /-- u8, "as sent". -/
  ls_downlink_rssi : Option (BitVec 8)
  /-- u8, in %. -/
  ls_downlink_link_quality : Option (BitVec 8)
  /-- s8, "as sent". -/
  ls_downlink_snr : Option Int
  /-- u16, in 0.01 V. -/
  bat_voltage : Option (BitVec 16)
  /-- u16, in 0.01 A. -/
  bat_current : Option (BitVec 16)
  /-- u16, in mAh. -/
  bat_capacity : Option (BitVec 16)
  /-- u8, in %. -/
  bat_remaining : Option (BitVec 8)
  /-- s32, in 1e-7 degree. -/
  gps_latitude : Option Int
  /-- s32, in 1e-7 degree. -/
  gps_longitude : Option Int
  /-- u16, in km/h. -/
  gps_ground_speed : Option (BitVec 16)
  /-- u16, in 0.01 degree. -/
  gps_heading : Option (BitVec 16)
  /-- s24, in 0.01 m, offset open (R9). -/
  gps_altitude : Option Int
  deriving DecidableEq, Repr

/-- Every field absent: the reset value of the snapshot (R26). -/
def Snapshot.absent : Snapshot where
  ls_uplink_rssi_1 := none
  ls_uplink_rssi_2 := none
  ls_uplink_link_quality := none
  ls_uplink_snr := none
  ls_active_antenna := none
  ls_rf_mode := none
  ls_uplink_tx_power := none
  ls_downlink_rssi := none
  ls_downlink_link_quality := none
  ls_downlink_snr := none
  bat_voltage := none
  bat_current := none
  bat_capacity := none
  bat_remaining := none
  gps_latitude := none
  gps_longitude := none
  gps_ground_speed := none
  gps_heading := none
  gps_altitude := none

/-- What a completed transaction hands to the agent that issued it (R75 "result", R200 outcomes 1 and 2). -/
inductive Result where
  /-- RESET and PARSE: no result. -/
  | done
  /-- CHECKSUM: one byte. -/
  | byte (value : Byte)
  /-- ENCODE: a frame. -/
  | frame (value : Frame)
  /-- ENCODE: the block's only error result, with the number of entries supplied (R201). -/
  | inputLengthError (count : Nat)
  /-- FEED and RECEIVE: the frames emitted, in emission order. -/
  | frames (values : List Frame)
  /-- READ: the whole snapshot (R28). -/
  | snapshot (value : Snapshot)
  deriving DecidableEq, Repr

/-- The three agents that issue operations (R7, R210). -/
inductive Agent where
  | writer | reader | host
  deriving DecidableEq, Repr

/-- One agent's side of the block: the transactions it has still to issue, in its own issue order, and the results it
has received, oldest first (R51; notes/assumptions/4.md and 5.md). -/
structure AgentPort where
  pending : List PortWord
  results : List Result
  deriving DecidableEq, Repr

/-- An agent that has nothing to issue and has received nothing. -/
def AgentPort.empty : AgentPort := { pending := [], results := [] }

/-- The reasons a step stops as a fault: none. The block raises no trap (R208), is never stuck (R200 outcome 4), and
its one error, InputLengthError, is a result after which it goes on (R201; notes/assumptions/10.md). Safe. -/
inductive Fault where
  deriving DecidableEq, Repr

/-- The reasons the model gives a transaction no meaning (R200 outcome 3, R211). All are safe: the run ends. -/
inductive Refusal where
  /-- Raised by `exec` for an instruction without a meaning; no arm raises it. Safe. -/
  | notModelled (mnemonic : String)
  /-- Command code 0b111, raised by RESERVED_111 (R211). Safe. -/
  | reservedCommand
  /-- A FEED or RECEIVE whose append would exceed `BUF_CAP`, raised by both (R144, R211). Safe. -/
  | bufferOverflow
  /-- A PARSE of a frame that fails FrameValid, raised by PARSE (R160, R211), and by a packet-type row whose payload no
  frame carries. Safe. -/
  | invalidFrame
  /-- A port word that is no transaction, raised by `step` before any meaning runs (notes/assumptions/9.md). Safe. -/
  | malformed (reason : DecodeError)
  deriving DecidableEq, Repr

/-- The machine. -/
structure State where
  /-- The decoder buffer, oldest byte first (R22). -/
  buf : List Byte
  /-- The telemetry snapshot (R25). -/
  snap : Snapshot
  /-- `BUF_CAP`, the capacity of `buf`; `none` is unbounded (R9). No step changes it (R222). -/
  bufCap : Option Nat
  /-- The model's result port: what the last completed operation returned. -/
  result : Option Result
  /-- The writer path. -/
  writer : AgentPort
  /-- The reader path. -/
  reader : AgentPort
  /-- The host. -/
  host : AgentPort
  /-- The total order of transactions still to come (R51): which agent's next transaction is taken, first at the
  head. Every interleaving is some list. -/
  schedule : List Agent
  deriving DecidableEq, Repr

/-- The machine at power-on, which is the reset state (R32, R221): the buffer empty and every field absent. `BUF_CAP`
has its default (R9), and no agent has issued anything (notes/assumptions/5.md, 6.md and 15.md). -/
def State.reset : State where
  buf := []
  snap := Snapshot.absent
  bufCap := none
  result := none
  writer := AgentPort.empty
  reader := AgentPort.empty
  host := AgentPort.empty
  schedule := []

end Sys2Proof.Machine
end

