-- ==== Sys2Proof/Machine/Operands.lean ====
section
/-! DEFINITION. Reading operands: elements and sub-sequences of a byte sequence (spec/00_scope.md R11), little-endian
and signed values (R10, spec/20_memory.md R42), the channel operand (spec/41_frame_encoder.md R111), and the named
parts of a frame (spec/30_encoding.md R60). -/

namespace Sys2Proof.Machine

/-- `B[i]` (R11). Every use stands behind a test that `B` is long enough; past the end it is 0
(notes/assumptions/14.md). -/
def byteAt (bytes : List Byte) (i : Nat) : Byte :=
  bytes.getD i 0

/-- `B[i..j]`, from i to j inclusive, empty when j < i (R11). -/
def slice (bytes : List Byte) (i j : Nat) : List Byte :=
  (bytes.drop i).take (j + 1 - i)

/-- `LE(B, off, n)`: the little-endian unsigned value of the n bytes at offset off (R11). -/
def le (bytes : List Byte) (off : Nat) : Nat → Nat
  | 0 => 0
  | n + 1 => (byteAt bytes off).toNat + 256 * le bytes (off + 1) n

/-- `sext_N(v)`: the low N bits of v read as two's complement (R10). -/
def sext (width v : Nat) : Int :=
  (BitVec.ofNat width v).toInt

/-- A channel value as ENCODE takes it: `v mod 2048`, the low 11 bits of a wider value (R111). -/
def channelOfInt (v : Int) : Channel :=
  BitVec.ofInt 11 v

/-- F[1], the length byte L (R60). -/
def lengthByte (frame : Frame) : Nat :=
  (byteAt frame 1).toNat

/-- F[2], the type byte (R60, R66). -/
def typeByte (frame : Frame) : Byte :=
  byteAt frame 2

/-- F[2..L], type ‖ payload, the bytes the CRC covers (R13 "Body", R63). -/
def body (frame : Frame) : List Byte :=
  slice frame 2 (lengthByte frame)

/-- F[3..L], the n = L − 2 payload bytes (R60). -/
def payloadOf (frame : Frame) : List Byte :=
  slice frame 3 (lengthByte frame)

end Sys2Proof.Machine
end

