-- ==== Sys2Proof/Machine/Flags.lean ====
section
/-! DEFINITION. The block has no condition flags (spec/10_state.md R30). What can be tested is whether a snapshot field
is absent; the decoder's two logical states are functions of the buffer alone (spec/42_frame_decoder.md R131). -/

namespace Sys2Proof.Machine

/-- The value of a snapshot field as an integer, or `none` where it is absent (R25, R169). -/
def Snapshot.read (snap : Snapshot) : Field → Option Int
  | .ls_uplink_rssi_1 => snap.ls_uplink_rssi_1.map fun v => v.toNat
  | .ls_uplink_rssi_2 => snap.ls_uplink_rssi_2.map fun v => v.toNat
  | .ls_uplink_link_quality => snap.ls_uplink_link_quality.map fun v => v.toNat
  | .ls_uplink_snr => snap.ls_uplink_snr
  | .ls_active_antenna => snap.ls_active_antenna.map fun v => v.toNat
  | .ls_rf_mode => snap.ls_rf_mode.map fun v => v.toNat
  | .ls_uplink_tx_power => snap.ls_uplink_tx_power.map fun v => v.toNat
  | .ls_downlink_rssi => snap.ls_downlink_rssi.map fun v => v.toNat
  | .ls_downlink_link_quality => snap.ls_downlink_link_quality.map fun v => v.toNat
  | .ls_downlink_snr => snap.ls_downlink_snr
  | .bat_voltage => snap.bat_voltage.map fun v => v.toNat
  | .bat_current => snap.bat_current.map fun v => v.toNat
  | .bat_capacity => snap.bat_capacity.map fun v => v.toNat
  | .bat_remaining => snap.bat_remaining.map fun v => v.toNat
  | .gps_latitude => snap.gps_latitude
  | .gps_longitude => snap.gps_longitude
  | .gps_ground_speed => snap.gps_ground_speed.map fun v => v.toNat
  | .gps_heading => snap.gps_heading.map fun v => v.toNat
  | .gps_altitude => snap.gps_altitude

/-- The one Boolean a program can test for each field: whether it is absent (R30). -/
def Snapshot.isAbsent (snap : Snapshot) (f : Field) : Bool :=
  (snap.read f).isNone

/-- The 19 fields in the order of R25. -/
def allFields : List Field :=
  [.ls_uplink_rssi_1, .ls_uplink_rssi_2, .ls_uplink_link_quality, .ls_uplink_snr, .ls_active_antenna, .ls_rf_mode,
    .ls_uplink_tx_power, .ls_downlink_rssi, .ls_downlink_link_quality, .ls_downlink_snr] ++
  [.bat_voltage, .bat_current, .bat_capacity, .bat_remaining] ++
  [.gps_latitude, .gps_longitude, .gps_ground_speed, .gps_heading, .gps_altitude]

/-- The 19 pairs (field, absent or value) that READ returns (R169). -/
def Snapshot.pairs (snap : Snapshot) : List (Field × Option Int) :=
  allFields.map fun f => (f, snap.read f)

/-- The packet type that writes a field (R25, column "written by type"). -/
def Field.writtenBy : Field → Byte
  | .ls_uplink_rssi_1 | .ls_uplink_rssi_2 | .ls_uplink_link_quality | .ls_uplink_snr | .ls_active_antenna
  | .ls_rf_mode | .ls_uplink_tx_power | .ls_downlink_rssi | .ls_downlink_link_quality | .ls_downlink_snr => tLs
  | .bat_voltage | .bat_current | .bat_capacity | .bat_remaining => tBat
  | .gps_latitude | .gps_longitude | .gps_ground_speed | .gps_heading | .gps_altitude => tGps

/-- The decoder's logical state "seeking sync" (R131). -/
def seekingSync (buf : List Byte) : Bool :=
  decide (buf.length < 4) || byteAt buf 0 != sync

/-- The decoder's logical state "awaiting full frame", which is outcome HALT_WAIT (R131, R135). -/
def awaitingFrame (buf : List Byte) : Bool :=
  decide (4 ≤ buf.length ∧ byteAt buf 0 = sync ∧ minLen ≤ lengthByte buf ∧ lengthByte buf ≤ maxFrameSize ∧
    buf.length < lengthByte buf + 2)

end Sys2Proof.Machine
end

