-- ==== Sys2Proof/Machine/Ops.lean ====
section
/-! DEFINITION. The operations every meaning is written with: the buffer and snapshot primitives (spec/00_scope.md R12),
how an operation ends (spec/60_exceptions.md R200, R201, R211), the CRC shared by encoder and decoder
(spec/40_checksum.md R104), the frame layout (spec/30_encoding.md R60, R65), and issuing and delivering transactions
(spec/20_memory.md R51). The block has no addressed memory (R40) and no trap (R208). -/

namespace Sys2Proof.Machine

/-- The outcome of one operation. -/
abbrev Ending := Host.Outcome State Fault Refusal

/-! ### Primitives on the state (R12) -/

/-- `BufAppend(c)`: `buf ‖ c`. -/
def bufAppend (buf chunk : List Byte) : List Byte :=
  buf ++ chunk

/-- `BufDrop(n)`: removes the first n bytes. -/
def bufDrop (n : Nat) (buf : List Byte) : List Byte :=
  buf.drop n

/-- The state with another buffer. -/
def State.withBuf (s : State) (buf : List Byte) : State :=
  { s with buf := buf }

/-- The state with another snapshot: one write, so all its fields at once (R48, R167). -/
def State.withSnap (s : State) (snap : Snapshot) : State :=
  { s with snap := snap }

/-- The state with a result on the result port. -/
def State.withResult (s : State) (r : Result) : State :=
  { s with result := some r }

/-! ### How an operation ends (R200) -/

/-- `return v`: the operation ends ok with result v. -/
def returnResult (s : State) (r : Result) : Ending :=
  .next (s.withResult r)

/-- `raise InputLengthError(n)`: the operation ends with that error result and no state change; there is no trap, and
the next transaction starts from this state (R12, R201, R208). -/
def raiseInputLengthError (count : Nat) (s : State) : Ending :=
  .next (s.withResult (.inputLengthError count))

/-- The cause code of an error result (R201). -/
def Result.causeCode : Result → Option Nat
  | .inputLengthError _ => some 1
  | .done | .byte _ | .frame _ | .frames _ | .snapshot _ => none

/-- `refuse <reason>`: the model gives the transaction no meaning (R12, R211). -/
def refuse (reason : Refusal) : Ending :=
  .refused reason

/-! ### The CRC (R100, R101) -/

/-- One of the eight shifts of CRC8_STEP: shift left, and reduce if the vacated top bit was 1 (R100). -/
def crcShift (a : Byte) : Byte :=
  if a.msb then (a <<< 1) ^^^ crcPoly else a <<< 1

/-- `repeat n times` of the shift (R100). -/
def crcShifts : Nat → Byte → Byte
  | 0, a => a
  | n + 1, a => crcShifts n (crcShift a)

/-- CRC8_STEP (R100). -/
def crc8Step (acc b : Byte) : Byte :=
  crcShifts 8 (acc ^^^ b)

/-- CHECKSUM: the fold of CRC8_STEP over the bytes in sequence order from CRC_INIT (R101). -/
def checksum (bytes : List Byte) : Byte :=
  bytes.foldl crc8Step crcInit

/-! ### Frames (R60, R65) -/

/-- The frame with this type and payload: sync, length, type, payload, CRC (R60, R62, R63). -/
def composeFrame (type : Byte) (payload : List Byte) : Frame :=
  [sync, BitVec.ofNat 8 (payload.length + 2)] ++ (type :: payload) ++ [checksum (type :: payload)]

/-- FrameValid, what the decoder checks and what PARSE requires (R65). -/
abbrev FrameValid (frame : Frame) : Prop :=
  4 ≤ frame.length ∧
  byteAt frame 0 = sync ∧
  minLen ≤ lengthByte frame ∧ lengthByte frame ≤ maxFrameSize ∧
  frame.length = lengthByte frame + 2 ∧
  byteAt frame (lengthByte frame + 1) = checksum (body frame)

/-! ### Issuing and delivering transactions (R51; notes/assumptions/4.md) -/

/-- An agent's side of the block. -/
def State.port (s : State) : Agent → AgentPort
  | .writer => s.writer
  | .reader => s.reader
  | .host => s.host

/-- The state with another side for one agent. -/
def State.withPort (s : State) (a : Agent) (p : AgentPort) : State :=
  match a with
  | .writer => { s with writer := p }
  | .reader => { s with reader := p }
  | .host => { s with host := p }

/-- The state with another order of transactions to come. -/
def State.withSchedule (s : State) (schedule : List Agent) : State :=
  { s with schedule := schedule }

/-- The transaction next in the total order: the agent whose turn it is, and its oldest pending port word. -/
inductive NextTransaction where
  /-- No agent is scheduled. -/
  | idle
  /-- The scheduled agent has nothing to issue. -/
  | skip (rest : List Agent)
  /-- The scheduled agent issues its oldest pending port word. -/
  | issue (agent : Agent) (word : PortWord)
  deriving DecidableEq, Repr

/-- Which transaction comes next. -/
def nextTransaction (s : State) : NextTransaction :=
  match s.schedule with
  | [] => .idle
  | a :: rest =>
    match (s.port a).pending with
    | [] => .skip rest
    | w :: _ => .issue a w

/-- The issued transaction is done: it leaves the agent's queue and the order, and its result goes to the agent. -/
def State.deliver (s : State) (a : Agent) : State :=
  (s.withPort a
    { pending := (s.port a).pending.tail
      results := (s.port a).results ++ s.result.toList }).withSchedule s.schedule.tail

/-- The state in which an agent has a port word to issue before all else. -/
def State.issueFirst (s : State) (a : Agent) (w : PortWord) : State :=
  (s.withPort a { pending := w :: (s.port a).pending, results := (s.port a).results }).withSchedule (a :: s.schedule)

end Sys2Proof.Machine
end

