-- ==== Sys2Proof/Machine/Checksum.lean ====
section
/-! DEFINITION. The checksum generator: operation CHECKSUM (spec/40_checksum.md R101). -/

namespace Sys2Proof.Machine

/-- CHECKSUM: returns one byte; reads and writes no block state (R101, R102). -/
def execChecksum (bytes : List Byte) (s : State) : Ending :=
  returnResult s (.byte (checksum bytes))

end Sys2Proof.Machine
end

