-- ==== Sys2Proof/Machine/Decoder.lean ====
section
/-! DEFINITION. The frame decoder: SCAN_STEP with its seven outcomes, the scan loop, and operation FEED
(spec/42_frame_decoder.md R130 to R145). -/

namespace Sys2Proof.Machine

/-- The outcome of one SCAN_STEP (R131). -/
inductive ScanOutcome where
  /-- R132: fewer than 4 bytes. -/
  | haltShort
  /-- R133: byte 0 is not the sync byte. -/
  | nonsync
  /-- R134: the length byte is over 64. -/
  | oversize
  /-- R134: the length byte is under 2. -/
  | undersize
  /-- R135: the candidate is not complete. -/
  | haltWait
  /-- R136: the candidate is a validated frame. -/
  | emit
  /-- R137: the candidate's CRC byte is wrong. -/
  | badcrc
  deriving DecidableEq, Repr

/-- The candidate frame, the first L+2 bytes of the buffer (R13, R131). -/
def candidate (buf : List Byte) : Frame :=
  slice buf 0 (lengthByte buf + 1)

/-- The tests of SCAN_STEP in their fixed order; the first that applies decides (R131, R205). -/
def scanOutcome (buf : List Byte) : ScanOutcome :=
  if buf.length < 4 then .haltShort
  else if byteAt buf 0 ≠ sync then .nonsync
  else if maxFrameSize < lengthByte buf then .oversize
  else if lengthByte buf < minLen then .undersize
  else if buf.length < lengthByte buf + 2 then .haltWait
  else if byteAt (candidate buf) (lengthByte buf + 1) = checksum (body (candidate buf)) then .emit
  else .badcrc

/-- The scan loop: SCAN_STEP until it halts, in at most `fuel` steps that do not halt. Answers the frames emitted, in
order, and the buffer left (R130). -/
def scan : Nat → List Byte → List Frame × List Byte
  | 0, buf => ([], buf)
  | fuel + 1, buf =>
    match scanOutcome buf with
    | .haltShort | .haltWait => ([], buf)
    | .nonsync | .oversize | .undersize | .badcrc => scan fuel (bufDrop 1 buf)
    | .emit =>
      let rest := scan fuel (bufDrop (lengthByte buf + 2) buf)
      (candidate buf :: rest.1, rest.2)

/-- The scan loop run to its halt. Every step that does not halt removes at least one byte, so as many steps as bytes
are enough (R139; notes/assumptions/13.md). -/
def scanAll (buf : List Byte) : List Frame × List Byte :=
  scan buf.length buf

/-- Whether appending the chunk would exceed `BUF_CAP` (R144). -/
def overflows (s : State) (chunk : List Byte) : Bool :=
  match s.bufCap with
  | none => false
  | some cap => decide (cap < s.buf.length + chunk.length)

/-- FEED: appends the chunk, scans to the halt, returns the frames emitted (R130); refused when the chunk does not
fit (R144). The snapshot is not touched. -/
def execFeed (chunk : List Byte) (s : State) : Ending :=
  if overflows s chunk then refuse .bufferOverflow
  else
    let scanned := scanAll (bufAppend s.buf chunk)
    returnResult (s.withBuf scanned.2) (.frames scanned.1)

end Sys2Proof.Machine
end

