-- ==== Sys2Proof/Machine/Encoder.lean ====
section
/-! DEFINITION. The frame encoder: the channel packer and its inverse, and operation ENCODE
(spec/41_frame_encoder.md R110 to R116). -/

namespace Sys2Proof.Machine

/-- The packer's transient state: the bit buffer, the bits it holds, and the bytes pulled out so far (R110). -/
structure PackState where
  acc : Nat
  n : Nat
  out : List Byte
  deriving DecidableEq, Repr

/-- `while n ≥ 8`: pull out complete bytes, least significant first, in at most `fuel` rounds (R110). -/
def pullBytes : Nat → PackState → PackState
  | 0, st => st
  | fuel + 1, st =>
    if 8 ≤ st.n then
      pullBytes fuel { acc := st.acc >>> 8, n := st.n - 8, out := st.out ++ [BitVec.ofNat 8 st.acc] }
    else st

/-- One channel: append its 11 bits above those held, then pull out the complete bytes. Each round of the pull removes
8 of the bits held, so as many rounds as bits are enough (R110). -/
def packChannel (st : PackState) (c : Channel) : PackState :=
  pullBytes (st.n + chBits) { acc := st.acc ||| (c.toNat <<< st.n), n := st.n + chBits, out := st.out }

/-- `if n > 0`: flush a partial byte. Never taken for 16 channels (R110). -/
def flushPartial (st : PackState) : List Byte :=
  if 0 < st.n then st.out ++ [BitVec.ofNat 8 st.acc] else st.out

/-- PACK in the source's streaming form (R110). -/
def pack (channels : List Channel) : List Byte :=
  flushPartial (channels.foldl packChannel { acc := 0, n := 0, out := [] })

/-- UNPACK: channel i is bits 11i to 11i+10 of the little-endian value (R114). -/
def unpack (packed : List Byte) : List Channel :=
  (List.range nCh).map fun i => BitVec.ofNat 11 (le packed 0 packedLen >>> (chBits * i))

/-- The frame ENCODE builds from 16 channel values (R112). -/
def encodeFrame (channels : List Int) : Frame :=
  composeFrame tRc (pack (channels.map channelOfInt))

/-- ENCODE: the count is checked before anything else; reads and writes no block state (R112, R116). -/
def execEncode (channels : List Int) (s : State) : Ending :=
  if channels.length = nCh then returnResult s (.frame (encodeFrame channels))
  else raiseInputLengthError channels.length s

end Sys2Proof.Machine
end

