-- ==== Sys2Proof/Machine/Parser.lean ====
section
/-! DEFINITION. The telemetry parser: the three layouts, the dispatch on the type byte, operation PARSE and the five
packet-type rows (spec/43_telemetry_parser.md R160 to R167). -/

namespace Sys2Proof.Machine

/-- PARSE_LINK_STATISTICS: ten fields at once (R161, layout R70). -/
def commitLinkStatistics (p : List Byte) (snap : Snapshot) : Snapshot :=
  { snap with
    ls_uplink_rssi_1 := some (byteAt p 0)
    ls_uplink_rssi_2 := some (byteAt p 1)
    ls_uplink_link_quality := some (byteAt p 2)
    ls_uplink_snr := some (sext 8 (byteAt p 3).toNat)
    ls_active_antenna := some (byteAt p 4)
    ls_rf_mode := some (byteAt p 5)
    ls_uplink_tx_power := some (byteAt p 6)
    ls_downlink_rssi := some (byteAt p 7)
    ls_downlink_link_quality := some (byteAt p 8)
    ls_downlink_snr := some (sext 8 (byteAt p 9).toNat) }

/-- PARSE_BATTERY: four fields at once (R162, layout R71). -/
def commitBattery (p : List Byte) (snap : Snapshot) : Snapshot :=
  { snap with
    bat_voltage := some (BitVec.ofNat 16 (le p 0 2))
    bat_current := some (BitVec.ofNat 16 (le p 2 2))
    bat_capacity := some (BitVec.ofNat 16 (le p 4 2))
    bat_remaining := some (byteAt p 6) }

/-- PARSE_GPS: five fields at once (R163, layout R72). -/
def commitGps (p : List Byte) (snap : Snapshot) : Snapshot :=
  { snap with
    gps_latitude := some (sext 32 (le p 0 4))
    gps_longitude := some (sext 32 (le p 4 4))
    gps_ground_speed := some (BitVec.ofNat 16 (le p 8 2))
    gps_heading := some (BitVec.ofNat 16 (le p 10 2))
    gps_altitude := some (sext 24 (le p 12 3)) }

/-- The dispatch on the type byte, with the length test of each type. A payload shorter than required is skipped as a
whole (R165), bytes beyond the required ones are not read (R166), and any other type is skipped (R164). -/
def commitPayload (type : Byte) (p : List Byte) (snap : Snapshot) : Snapshot :=
  if type = tLs then
    if reqLs ≤ p.length then commitLinkStatistics p snap else snap
  else if type = tBat then
    if reqBat ≤ p.length then commitBattery p snap else snap
  else if type = tGps then
    if reqGps ≤ p.length then commitGps p snap else snap
  else snap

/-- The snapshot after PARSE of a frame, or `none` where the frame fails FrameValid (R160). -/
def parseFrame (frame : Frame) (snap : Snapshot) : Option Snapshot :=
  if FrameValid frame then some (commitPayload (typeByte frame) (payloadOf frame) snap) else none

/-- PARSE: refused unless FrameValid, which is tested first; else one commit, no result (R160, R167, R205). -/
def execParse (frame : Frame) (s : State) : Ending :=
  match parseFrame frame s.snap with
  | some snap => returnResult (s.withSnap snap) .done
  | none => refuse .invalidFrame

/-- PARSE of the validated frame with this type and payload, whose validity is that the payload fits in a frame
(R64, R65; notes/assumptions/2.md). -/
def parsePayload (type : Byte) (payload : List Byte) (s : State) : Ending :=
  if payload.length ≤ maxPayload then returnResult (s.withSnap (commitPayload type payload s.snap)) .done
  else refuse .invalidFrame

/-- TYPE_LINK_STATISTICS (R161). -/
def execTypeLinkStatistics (payload : List Byte) (s : State) : Ending :=
  parsePayload tLs payload s

/-- TYPE_BATTERY_SENSOR (R162). -/
def execTypeBatterySensor (payload : List Byte) (s : State) : Ending :=
  parsePayload tBat payload s

/-- TYPE_GPS (R163). -/
def execTypeGps (payload : List Byte) (s : State) : Ending :=
  parsePayload tGps payload s

/-- TYPE_RC_CHANNELS_PACKED: ignored, no state changes (R164). -/
def execTypeRcChannelsPacked (payload : List Byte) (s : State) : Ending :=
  parsePayload tRc payload s

/-- TYPE_OTHER: ignored, no state changes (R164, R67). -/
def execTypeOther (type : Byte) (payload : List Byte) (s : State) : Ending :=
  parsePayload type payload s

end Sys2Proof.Machine
end

