-- ==== Sys2Proof/Machine/Reader.lean ====
section
/-! DEFINITION. The reader path's composition RECEIVE and the host's READ (spec/43_telemetry_parser.md R168, R169). -/

namespace Sys2Proof.Machine

/-- PARSE of each frame in order, each from the snapshot the one before left, or `none` where one is refused (R168). -/
def parseFrames : List Frame → Snapshot → Option Snapshot
  | [], snap => some snap
  | frame :: rest, snap =>
    match parseFrame frame snap with
    | some snap' => parseFrames rest snap'
    | none => none

/-- RECEIVE: FEED, then PARSE of every emitted frame in emission order, as one transaction (R168, R47, R50). -/
def execReceive (chunk : List Byte) (s : State) : Ending :=
  if overflows s chunk then refuse .bufferOverflow
  else
    let scanned := scanAll (bufAppend s.buf chunk)
    match parseFrames scanned.1 s.snap with
    | some snap => returnResult ((s.withBuf scanned.2).withSnap snap) (.frames scanned.1)
    | none => refuse .invalidFrame

/-- READ: the whole snapshot at one instant; no state changes (R169, R28). -/
def execRead (s : State) : Ending :=
  returnResult s (.snapshot s.snap)

end Sys2Proof.Machine
end

