-- ==== Sys2Proof/Machine/System.lean ====
section
/-! DEFINITION. The operation on the block as a whole, RESET (spec/70_reset_and_hazards.md R220), and the reserved
command code (spec/60_exceptions.md R211). -/

namespace Sys2Proof.Machine

/-- RESET: the buffer empty and every field absent; no result (R220). -/
def execReset (s : State) : Ending :=
  returnResult ((s.withBuf []).withSnap Snapshot.absent) .done

/-- RESERVED_111: refused, whatever the operand (R75, R211). -/
def execReserved111 (_operand : List Int) (_s : State) : Ending :=
  refuse .reservedCommand

end Sys2Proof.Machine
end

