-- ==== Sys2Proof/Machine/Dispatch.lean ====
section
/-! DEFINITION. One arm for each constructor of Instr, each one call of its meaning. -/

namespace Sys2Proof.Machine

/-- The meaning of an instruction in a state. -/
def exec (i : Instr) (s : State) : Host.Outcome State Fault Refusal :=
  match i with
  | .reset => Sys2Proof.Machine.execReset s
  | .checksum bytes => Sys2Proof.Machine.execChecksum bytes s
  | .encode channels => Sys2Proof.Machine.execEncode channels s
  | .feed chunk => Sys2Proof.Machine.execFeed chunk s
  | .parse frame => Sys2Proof.Machine.execParse frame s
  | .receive chunk => Sys2Proof.Machine.execReceive chunk s
  | .read => Sys2Proof.Machine.execRead s
  | .reserved111 operand => Sys2Proof.Machine.execReserved111 operand s
  | .typeLinkStatistics payload => Sys2Proof.Machine.execTypeLinkStatistics payload s
  | .typeBatterySensor payload => Sys2Proof.Machine.execTypeBatterySensor payload s
  | .typeGps payload => Sys2Proof.Machine.execTypeGps payload s
  | .typeRcChannelsPacked payload => Sys2Proof.Machine.execTypeRcChannelsPacked payload s
  | .typeOther type payload => Sys2Proof.Machine.execTypeOther type payload s

end Sys2Proof.Machine
end

