-- ==== Sys2Proof/Machine/Step.lean ====
section
/-! DEFINITION. One step: the next transaction of the total order, whole (spec/20_memory.md R47, R51). -/

namespace Sys2Proof.Machine

/-- One step. Without a scheduled agent the block waits; a scheduled agent with nothing to issue lets its turn pass;
otherwise its oldest pending port word is decoded and run, and the result is delivered to it. -/
def step (s : State) : Host.Outcome State Fault Refusal :=
  match nextTransaction s with
  | .idle => .next s
  | .skip rest => .next (s.withSchedule rest)
  | .issue agent word =>
    match decode word with
    | .error reason => .refused (.malformed reason)
    | .ok i =>
      match exec i s with
      | .next t => .next (t.deliver agent)
      | .fault r => .fault r
      | .refused r => .refused r

/-- The state in which the very next step runs the instruction of a table word: the host issues it first
(notes/assumptions/15.md). -/
def State.withFetchWord (s : State) (nbits w : Nat) : State :=
  s.issueFirst .host (tableWord nbits w)

end Sys2Proof.Machine
end

