-- ==== Sys2Proof/Machine/Interpretation.lean ====
section
/-! DEFINITION. What the raw values mean to a consumer (spec/43_telemetry_parser.md R170, informative). No block state
depends on this file. -/

namespace Sys2Proof.Machine

/-- volts = bat_voltage / 100. -/
def volts (raw : BitVec 16) : Rat :=
  (raw.toNat : Rat) / 100

/-- amps = bat_current / 100. -/
def amps (raw : BitVec 16) : Rat :=
  (raw.toNat : Rat) / 100

/-- mAh = bat_capacity. -/
def milliampHours (raw : BitVec 16) : Rat :=
  raw.toNat

/-- % = bat_remaining, and the two link-quality fields. -/
def percent (raw : BitVec 8) : Rat :=
  raw.toNat

/-- degrees = gps_latitude / 10^7, and gps_longitude / 10^7. -/
def degrees (raw : Int) : Rat :=
  (raw : Rat) / 10000000

/-- km/h = gps_ground_speed. -/
def kmPerHour (raw : BitVec 16) : Rat :=
  raw.toNat

/-- degrees = gps_heading / 100. -/
def headingDegrees (raw : BitVec 16) : Rat :=
  (raw.toNat : Rat) / 100

/-- metres = (gps_altitude − offset) / 100. -/
def metresFrom (offset raw : Int) : Rat :=
  ((raw - offset : Int) : Rat) / 100

/-- metres with the open parameter `GPS_ALT_OFFSET` (R9; notes/assumptions/7.md). -/
def metres (raw : Int) : Rat :=
  metresFrom Config.gpsAltOffset raw

end Sys2Proof.Machine
end

