-- ==== Sys2Proof/Safety.lean ====
section
/-! DEFINITION. What a safe state and a legal run are, in the terms the statements use: the invariant of the state, the
scan loop as a relation written from the spec independently of the machine's function, runs of several transactions,
and the arithmetic of CRC polynomials. -/

namespace Sys2Proof.Machine

/-! ### The invariant -/

/-- R140 (ii), the complete wording: a sync byte, a plausible length byte, and fewer than L+2 bytes. -/
abbrev AwaitsFrame (buf : List Byte) : Prop :=
  byteAt buf 0 = 0xC8 ∧ 2 ≤ (byteAt buf 1).toNat ∧ (byteAt buf 1).toNat ≤ 64 ∧
    4 ≤ buf.length ∧ buf.length < (byteAt buf 1).toNat + 2

/-- R140: the buffer a FEED leaves. -/
abbrev Quiescent (buf : List Byte) : Prop :=
  buf.length ≤ 3 ∨ AwaitsFrame buf

/-- R25, column "type": the least and the greatest value of each field. -/
def Field.range : Field → Int × Int
  | .ls_uplink_rssi_1 | .ls_uplink_rssi_2 | .ls_uplink_link_quality | .ls_active_antenna | .ls_rf_mode
  | .ls_uplink_tx_power | .ls_downlink_rssi | .ls_downlink_link_quality | .bat_remaining => (0, 255)
  | .ls_uplink_snr | .ls_downlink_snr => (-128, 127)
  | .bat_voltage | .bat_current | .bat_capacity | .gps_ground_speed | .gps_heading => (0, 65535)
  | .gps_latitude | .gps_longitude => (-2147483648, 2147483647)
  | .gps_altitude => (-8388608, 8388607)

/-- Every field that is present holds a value of its type (R25). -/
def Snapshot.InRange (snap : Snapshot) : Prop :=
  ∀ (f : Field) (v : Int), snap.read f = some v → f.range.1 ≤ v ∧ v ≤ f.range.2

/-- R24: `buf` never exceeds a finite capacity. -/
def WithinCapacity (s : State) : Prop :=
  ∀ cap, s.bufCap = some cap → s.buf.length ≤ cap

/-- The invariant of the machine between transactions. -/
structure State.Inv (s : State) : Prop where
  quiescent : Quiescent s.buf
  withinCapacity : WithinCapacity s
  inRange : s.snap.InRange

/-! ### Frames of instructions -/

/-- Nothing but the block's buffer, snapshot and result port differs: the parameter, the agents' queues and the order
to come are the same. -/
def PortsKept (s t : State) : Prop :=
  t.bufCap = s.bufCap ∧ t.writer = s.writer ∧ t.reader = s.reader ∧ t.host = s.host ∧ t.schedule = s.schedule

/-- A chunk fits: appending it does not exceed a finite capacity (R144). -/
def Fits (chunk : List Byte) (s : State) : Prop :=
  ∀ cap, s.bufCap = some cap → s.buf.length + chunk.length ≤ cap

/-! ### The scan loop as a relation (R131) -/

/-- One SCAN_STEP that does not halt, from a buffer to the next, with the frame it emits if it emits one. -/
inductive ScanMove : List Byte → List Frame → List Byte → Prop where
  | nonsync {b : List Byte} : 4 ≤ b.length → byteAt b 0 ≠ 0xC8 → ScanMove b [] (b.drop 1)
  | oversize {b : List Byte} : 4 ≤ b.length → byteAt b 0 = 0xC8 → 64 < (byteAt b 1).toNat → ScanMove b [] (b.drop 1)
  | undersize {b : List Byte} : 4 ≤ b.length → byteAt b 0 = 0xC8 → (byteAt b 1).toNat < 2 → ScanMove b [] (b.drop 1)
  | emit {type crc : Byte} {payload rest : List Byte} :
      payload.length ≤ 62 → crc = checksum (type :: payload) →
      ScanMove ([0xC8, BitVec.ofNat 8 (payload.length + 2), type] ++ payload ++ [crc] ++ rest)
        [[0xC8, BitVec.ofNat 8 (payload.length + 2), type] ++ payload ++ [crc]] rest
  | badcrc {type crc : Byte} {payload rest : List Byte} :
      payload.length ≤ 62 → crc ≠ checksum (type :: payload) →
      ScanMove ([0xC8, BitVec.ofNat 8 (payload.length + 2), type] ++ payload ++ [crc] ++ rest)
        [] ([BitVec.ofNat 8 (payload.length + 2), type] ++ payload ++ [crc] ++ rest)

/-- A number of such steps in a row, with the frames emitted in order. -/
inductive ScanMoves : Nat → List Byte → List Frame → List Byte → Prop where
  | refl (b : List Byte) : ScanMoves 0 b [] b
  | step {n : Nat} {b b' b'' : List Byte} {fs gs : List Frame} :
      ScanMove b fs b' → ScanMoves n b' gs b'' → ScanMoves (n + 1) b (fs ++ gs) b''

/-- SCAN_STEP halts: outcome HALT_SHORT or HALT_WAIT (R132, R135). -/
abbrev ScanHalted (b : List Byte) : Prop :=
  b.length < 4 ∨ AwaitsFrame b

/-- The candidate frame that starts at byte j of a stream: as many bytes as its length byte claims, or fewer where the
stream ends before (R13 "Candidate frame"). -/
def candidateAt (stream : List Byte) (j : Nat) : Frame :=
  (stream.drop j).take ((byteAt stream (j + 1)).toNat + 2)

/-! ### Several transactions in a row -/

/-- FEED of each chunk in turn: the frames of all of them in order, and the state left; `none` where one does not
complete. -/
def feedChunks : List (List Byte) → State → Option (List Frame × State)
  | [], s => some ([], s)
  | c :: cs, s =>
    match exec (.feed c) s with
    | .next t =>
      match t.result, feedChunks cs t with
      | some (.frames fs), some (gs, u) => some (fs ++ gs, u)
      | _, _ => none
    | .fault _ | .refused _ => none

/-- RECEIVE of each chunk in turn, likewise. -/
def receiveChunks : List (List Byte) → State → Option (List Frame × State)
  | [], s => some ([], s)
  | c :: cs, s =>
    match exec (.receive c) s with
    | .next t =>
      match t.result, receiveChunks cs t with
      | some (.frames fs), some (gs, u) => some (fs ++ gs, u)
      | _, _ => none
    | .fault _ | .refused _ => none

/-- PARSE of each frame in turn; `none` where one does not complete. -/
def parseChain : List Frame → State → Option State
  | [], s => some s
  | frame :: frames, s =>
    match exec (.parse frame) s with
    | .next t => parseChain frames t
    | .fault _ | .refused _ => none

/-- A number of steps, ending at the first that does not answer a next state. -/
def runSteps : Nat → State → Host.Outcome State Fault Refusal
  | 0, s => .next s
  | n + 1, s =>
    match step s with
    | .next t => runSteps n t
    | .fault r => .fault r
    | .refused r => .refused r

/-- The usage R7 gives the writer path: it issues CHECKSUM and ENCODE only. -/
def IssuesOnlyWriterOperations (p : AgentPort) : Prop :=
  ∀ w ∈ p.pending, (∃ bytes, decode w = .ok (.checksum bytes)) ∨ (∃ channels, decode w = .ok (.encode channels))

/-- The frame is one whose PARSE the instruction contains: PARSE itself, each frame RECEIVE emits, or the validated frame
a packet-type row stands for (R27: "including the PARSE steps inside RECEIVE"). -/
def ContainsParseOf (i : Instr) (result : Option Result) (frame : Frame) : Prop :=
  match i with
  | .parse f => frame = f
  | .receive _ => ∃ frames, result = some (.frames frames) ∧ frame ∈ frames
  | .typeLinkStatistics payload => frame = composeFrame 0x14 payload
  | .typeBatterySensor payload => frame = composeFrame 0x08 payload
  | .typeGps payload => frame = composeFrame 0x02 payload
  | .typeRcChannelsPacked payload => frame = composeFrame 0x16 payload
  | .typeOther type payload => frame = composeFrame type payload
  | .reset | .checksum _ | .encode _ | .feed _ | .read | .reserved111 _ => False

/-! ### CRC polynomials over GF(2) -/

/-- A byte sequence as one number, the first byte most significant: the message polynomial's coefficients. -/
def messageValue (bytes : List Byte) : Nat :=
  bytes.foldl (fun acc b => acc * 256 + b.toNat) 0

/-- The carry-less product of a polynomial, given by its coefficients from the highest down, and the polynomial `p`. -/
def carrylessMul (p : Nat) : List Bool → Nat
  | [] => 0
  | c :: cs => (if c then p <<< cs.length else 0) ^^^ carrylessMul p cs

/-- The generator polynomial with its x^8 term written out: x^8 and `CRC_POLY` = 0xD5 (R8). -/
def generator : Nat := 0x1D5

end Sys2Proof.Machine
end

