-- ==== Sys2Proof/Certificates/Slice0/Obligations.lean ====
section
/-! DEFINITION. The statements for the provers. Each docstring names the rule of spec/ it formalises, and the model's own
choice where it rests on one. -/

open Sys2Proof Sys2Proof.Machine

/-! ### Encoding and decoding -/

/-- Every well-formed instruction is what its port word decodes to. The port word is the model's (assumptions/1.md,
2.md); the command codes and type bytes in it are R75 and R66. -/
def Obligations.DecodeOfEncodeIsInstruction : Prop :=
  ∀ i : Instr, WellFormed i = true → decode (encode i) = .ok i

/-- Every port word that decodes is the encoding of what it decodes to, which is well formed: no bit is dropped. -/
def Obligations.EncodeOfDecodeIsPortWord : Prop :=
  ∀ (w : PortWord) (i : Instr), decode w = .ok i → WellFormed i = true ∧ encode i = w

/-- The opcode table's words decode to their rows (R75, R66), and four full port words to the instruction they stand
for. The reading of 8-bit words below 8 as command codes is assumptions/3.md. -/
def Obligations.TableWordsDecodeToTheirRows : Prop :=
  decodeTableWord 8 0b000 = some .reset ∧
  decodeTableWord 8 0b001 = some (.checksum []) ∧
  decodeTableWord 8 0b010 = some (.encode []) ∧
  decodeTableWord 8 0b011 = some (.feed []) ∧
  decodeTableWord 8 0b100 = some (.parse []) ∧
  decodeTableWord 8 0b101 = some (.receive []) ∧
  decodeTableWord 8 0b110 = some .read ∧
  decodeTableWord 8 0b111 = some (.reserved111 []) ∧
  decodeTableWord 8 0b00010100 = some (.typeLinkStatistics []) ∧
  decodeTableWord 8 0b00001000 = some (.typeBatterySensor []) ∧
  decodeTableWord 16 0b00000010 = some (.typeGps [0x00]) ∧
  decodeTableWord 8 0b00010110 = some (.typeRcChannelsPacked []) ∧
  decodeTableWord 8 0b00100001 = some (.typeOther 0x21 []) ∧
  decode (.operation 0b001 [0x31, 0x32]) = .ok (.checksum [0x31, 0x32]) ∧
  decode (.operation 0b010 [1024, 2047]) = .ok (.encode [1024, 2047]) ∧
  decode (.operation 0b100 [0xC8, 0x02, 0x16, 0xD3]) = .ok (.parse [0xC8, 0x02, 0x16, 0xD3]) ∧
  decode (.packetType 0x08 [0xE8, 0x03]) = .ok (.typeBatterySensor [0xE8, 0x03])

/-- The decoder rejects exactly the port words that are no transaction of R75 and no frame of R64: an operand where
the operation has none, an element that is no byte, a payload no frame carries (assumptions/9.md). -/
def Obligations.DecodeRejectsExactlyMalformedWords : Prop :=
  (∀ (code : CommandCode) (operand : List Int) (e : DecodeError),
    decode (.operation code operand) = .error e ↔
      (e = .operandNotEmpty ∧ (code = 0b000 ∨ code = 0b110) ∧ operand ≠ []) ∨
      (e = .operandNotByte ∧ (code = 0b001 ∨ code = 0b011 ∨ code = 0b100 ∨ code = 0b101) ∧
        ∃ v ∈ operand, v < 0 ∨ 255 < v)) ∧
  (∀ (type : Byte) (payload : List Byte) (e : DecodeError),
    decode (.packetType type payload) = .error e ↔ e = .payloadTooLong ∧ 62 < payload.length)

/-! ### The step and the agents -/

/-- A step runs the decoded instruction of the scheduled agent and is exec of it at that state; around exec it takes
the transaction out of that agent's queue and out of the order, hands the agent the result, and leaves every other
agent alone (R47, R51; the queues are assumptions/4.md and 5.md). Where exec stops, the step stops so. -/
def Obligations.StepRunsDecodedInstruction : Prop :=
  ∀ (s : State) (a : Agent) (rest : List Agent) (w : PortWord) (ws : List PortWord) (i : Instr),
    s.schedule = a :: rest → (s.port a).pending = w :: ws → decode w = .ok i →
    (∀ t, exec i s = .next t → ∃ u, step s = .next u ∧
      u.buf = t.buf ∧ u.snap = t.snap ∧ u.bufCap = t.bufCap ∧ u.result = t.result ∧ u.schedule = rest ∧
      (u.port a).pending = ws ∧ (u.port a).results = (s.port a).results ++ t.result.toList ∧
      ∀ b, b ≠ a → u.port b = s.port b) ∧
    (∀ r, exec i s = .refused r → step s = .refused r)

/-- Where there is no transaction to run, the model's choice (assumptions/4.md, 9.md): without a scheduled agent
nothing changes, an agent with nothing to issue only loses its turn, and a malformed port word is refused by its
name. -/
def Obligations.StepWithoutTransaction : Prop :=
  (∀ s : State, s.schedule = [] → step s = .next s) ∧
  (∀ (s : State) (a : Agent) (rest : List Agent), s.schedule = a :: rest → (s.port a).pending = [] →
    step s = .next { s with schedule := rest }) ∧
  (∀ (s : State) (a : Agent) (rest : List Agent) (w : PortWord) (ws : List PortWord) (e : DecodeError),
    s.schedule = a :: rest → (s.port a).pending = w :: ws → decode w = .error e →
    step s = .refused (.malformed e))

/-- withFetchWord makes the very next step run the instruction of the table word, from any state, and its result
reaches the host, the agent the model issues it from (assumptions/15.md). -/
def Obligations.FetchWordRunsNext : Prop :=
  ∀ (s t : State) (nbits w : Nat) (i : Instr), decodeTableWord nbits w = some i →
    exec i (s.withFetchWord nbits w) = .next t →
    ∃ u, step (s.withFetchWord nbits w) = .next u ∧ u.buf = t.buf ∧ u.snap = t.snap ∧ u.result = t.result ∧
      u.schedule = s.schedule ∧ u.writer = s.writer ∧ u.reader = s.reader ∧
      u.host.pending = s.host.pending ∧ u.host.results = s.host.results ++ t.result.toList

/-- R209, the spec's decision D20: no operation checks who issues it. Two machines with the same block state, in
which any two agents issue one port word, step alike: the same outcome, and the same block state and result after
it. The agents' queues and the result port are the model's (assumptions/4.md, 5.md). -/
def Obligations.AnyAgentMayIssueAnyOperation : Prop :=
  ∀ (s1 s2 : State) (a1 a2 : Agent) (w : PortWord),
    s1.buf = s2.buf → s1.snap = s2.snap → s1.bufCap = s2.bufCap →
    nextTransaction s1 = .issue a1 w → nextTransaction s2 = .issue a2 w →
    (∀ t1, step s1 = .next t1 → ∃ t2, step s2 = .next t2 ∧ t2.buf = t1.buf ∧ t2.snap = t1.snap ∧
      t2.bufCap = t1.bufCap ∧ t2.result = t1.result) ∧
    (∀ r, step s1 = .refused r → step s2 = .refused r)

/-- R51, the spec's decision D11: the total order respects each agent's own issue order. Over any run, what an agent
has issued is the oldest part of its queue; the queues are the model's (assumptions/4.md). That the agent has then
received one result for each transaction of that part is the model's too: it hands `done` over for RESET and PARSE,
which R75 gives no result (assumptions/5.md). -/
def Obligations.EachAgentsIssueOrderIsKept : Prop :=
  ∀ (n : Nat) (s t : State) (a : Agent), runSteps n s = .next t →
    ∃ issued got, (s.port a).pending = issued ++ (t.port a).pending ∧
      (t.port a).results = (s.port a).results ++ got ∧ got.length = issued.length

/-- R52, which the spec derives: writer-path results do not depend on the interleaving. Two runs, from states that
share nothing but the writer path's queue and under any two orders, give the writer path the same results once as
many of its transactions are done; whatever the reader path and the host did in between. The queues, the order and
the received results are the model's (assumptions/4.md, 5.md). -/
def Obligations.WriterResultsDoNotDependOnInterleaving : Prop :=
  ∀ (n1 n2 : Nat) (s1 s2 t1 t2 : State), s1.writer = s2.writer → IssuesOnlyWriterOperations s1.writer →
    runSteps n1 s1 = .next t1 → runSteps n2 s2 = .next t2 →
    t1.writer.pending.length = t2.writer.pending.length → t1.writer.results = t2.writer.results

/-! ### Reset -/

/-- R23 and R26, the spec's decisions D13 and D12: the reset values of the buffer and of every snapshot field. -/
def Obligations.ResetStateHoldsResetValues : Prop :=
  State.reset.buf = [] ∧ ∀ f : Field, State.reset.snap.read f = none

/-- R220, the spec's decision D13: RESET empties the buffer and makes every field absent, from every state, with no
result, which the model writes as `done` (assumptions/5.md); the parameter and the agents' queues, which stand in the
model's State, stay (assumptions/4.md, 6.md). -/
def Obligations.ResetEmptiesBlock : Prop :=
  ∀ s : State, ∃ t, exec .reset s = .next t ∧ t.buf = [] ∧ (∀ f : Field, t.snap.read f = none) ∧
    t.result = some .done ∧ PortsKept s t

/-- R220, first corner case: RESET discards a partial frame; whatever was buffered before it, the bytes that arrive
later are scanned as a fresh stream. -/
def Obligations.ResetStartsFreshStream : Prop :=
  ∀ (s1 s2 t1 t2 : State) (chunk : List Byte), s1.bufCap = s2.bufCap →
    exec .reset s1 = .next t1 → exec .reset s2 = .next t2 → Fits chunk t1 →
    ∃ u1 u2, exec (.receive chunk) t1 = .next u1 ∧ exec (.receive chunk) t2 = .next u2 ∧
      u1.result = u2.result ∧ u1.buf = u2.buf ∧ u1.snap = u2.snap

/-! ### The checksum generator -/

/-- R101: CHECKSUM returns one byte and changes nothing else; it starts from 0x00, runs CRC8_STEP over the bytes in
order, and applies no final XOR. -/
def Obligations.ChecksumReturnsFoldOfSteps : Prop :=
  (∀ (bytes : List Byte) (s : State),
    exec (.checksum bytes) s = .next { s with result := some (.byte (checksum bytes)) }) ∧
  checksum [] = 0x00 ∧
  (∀ (bytes : List Byte) (b : Byte), checksum (bytes ++ [b]) = crc8Step (checksum bytes) b) ∧
  (∀ n : Nat, checksum (List.replicate n 0x00) = 0x00)

/-- R100's corner cases: CRC8_STEP depends only on the XOR of its operands, 0x00 and 0x00 give 0x00, 0x01 gives the
polynomial, and the table of V-L2-CRC-T has 256 distinct entries. -/
def Obligations.CrcStepDependsOnXorAlone : Prop :=
  (∀ acc b : Byte, crc8Step acc b = crc8Step 0x00 (acc ^^^ b)) ∧
  crc8Step 0x00 0x00 = 0x00 ∧ crc8Step 0x00 0x01 = 0xD5 ∧
  (∀ x y : Byte, crc8Step 0x00 x = crc8Step 0x00 y → x = y)

/-- CHECKSUM is CRC-8 with polynomial 0xD5, most significant bit first: the returned byte is the remainder of the
message, shifted by eight, on division by the generator over GF(2). The spec names the polynomial; the division is what
R100 and R101 come to. -/
def Obligations.ChecksumIsPolynomialRemainder : Prop :=
  ∀ (bytes : List Byte) (s : State), ∃ (c : Byte) (quotient : List Bool),
    exec (.checksum bytes) s = .next { s with result := some (.byte c) } ∧
    messageValue bytes * 256 = carrylessMul generator quotient ^^^ c.toNat

/-- R103 (a), which the spec derives: CHECKSUM of the bytewise XOR of two sequences of equal length is the XOR of
their checksums. -/
def Obligations.ChecksumIsLinear : Prop :=
  ∀ a b : List Byte, a.length = b.length →
    checksum (List.zipWith (· ^^^ ·) a b) = checksum a ^^^ checksum b

/-- R103 (b), which the spec derives: a sequence followed by its own checksum has checksum zero; and only its own
checksum does that. -/
def Obligations.ChecksumHasZeroResidue : Prop :=
  ∀ (a : List Byte) (c : Byte), checksum (a ++ [c]) = 0x00 ↔ c = checksum a

/-- R103 (d), which the spec derives, and R137's corner case: changing one bit of the body or the CRC byte of a
valid frame makes the decoder take BADCRC. That PARSE refuses the changed frame is R160 and R211, the spec's decision
D18. -/
def Obligations.SingleBitErrorIsRejected : Prop :=
  ∀ (frame rest : List Byte) (k bit : Nat) (s : State), FrameValid frame → 2 ≤ k → k < frame.length → bit < 8 →
    let corrupted := frame.set k (byteAt frame k ^^^ (1#8 <<< bit))
    scanOutcome (corrupted ++ rest) = .badcrc ∧ exec (.parse corrupted) s = .refused .invalidFrame

/-! ### The frame encoder -/

/-- R112: the count is checked first; with other than 16 values ENCODE ends in InputLengthError with the count,
without a frame; that this error is a result after which the machine goes on is the model's reading
(assumptions/10.md). From 16 values it returns the 26 bytes 0xC8, 0x18, the type 0x16, PACK of the values mod 2048,
and the CRC of type and payload; that this is a valid frame the spec derives. The truncation is the spec's decision D3
(R111); that a channel value may be negative, and is then reduced mod 2048 as well, is the model's choice
(assumptions/1.md). In both cases nothing but the result port changes. -/
def Obligations.EncodeReturnsFrame : Prop :=
  ∀ (channels : List Int) (s : State),
    (channels.length ≠ 16 →
      exec (.encode channels) s = .next { s with result := some (.inputLengthError channels.length) }) ∧
    (channels.length = 16 →
      ∃ packed : List Byte, packed = pack (channels.map fun v => BitVec.ofNat 11 (v % 2048).toNat) ∧
        packed.length = 22 ∧
        exec (.encode channels) s = .next { s with result := some (.frame
          ([0xC8, 0x18, 0x16] ++ packed ++ [checksum (0x16 :: packed)])) } ∧
        FrameValid ([0xC8, 0x18, 0x16] ++ packed ++ [checksum (0x16 :: packed)]))

/-- R102 and R116: CHECKSUM and ENCODE depend on their operand alone: from any two states they give one result, and
they write no block state. -/
def Obligations.WriterOperationsArePure : Prop :=
  (∀ bytes : List Byte, ∃ r, ∀ s : State, exec (.checksum bytes) s = .next { s with result := some r }) ∧
  (∀ channels : List Int, ∃ r, ∀ s : State, exec (.encode channels) s = .next { s with result := some r })

/-- R201: a channel count other than 16 gives InputLengthError with that count and no state changes; its cause code
1 is the spec's decision D16. The machine goes on (assumptions/10.md). -/
def Obligations.EncodeWrongCountIsInputLengthError : Prop :=
  ∀ (channels : List Int) (s : State), channels.length ≠ 16 → ∃ t r,
    exec (.encode channels) s = .next t ∧ t.result = some r ∧ r = .inputLengthError channels.length ∧
      r.causeCode = some 1 ∧ t.buf = s.buf ∧ t.snap = s.snap ∧ PortsKept s t

/-- R43: channel i supplies stream bits 11i to 11i+10, least significant first, and stream bit s is bit s mod 8 of
packed byte s div 8; the 176 bits fill 22 bytes. -/
def Obligations.PackPlacesEveryBit : Prop :=
  ∀ c : List Channel, c.length = 16 → (pack c).length = 22 ∧
    ∀ i b : Nat, i < 16 → b < 11 →
      (byteAt (pack c) ((11 * i + b) / 8)).getLsbD ((11 * i + b) % 8) = (c.getD i 0).getLsbD b

/-- R69, which the spec derives from R68: the same map as one expression for each packed byte; `++` puts its left
operand in the high bits. -/
def Obligations.PackedBytesAreTheTable : Prop :=
  ∀ ch : Nat → Channel,
    let p := byteAt (pack ((List.range 16).map ch))
    p 0 = (ch 0).extractLsb' 0 8 ∧
    p 1 = (ch 1).extractLsb' 0 5 ++ (ch 0).extractLsb' 8 3 ∧
    p 2 = (ch 2).extractLsb' 0 2 ++ (ch 1).extractLsb' 5 6 ∧
    p 3 = (ch 2).extractLsb' 2 8 ∧
    p 4 = (ch 3).extractLsb' 0 7 ++ (ch 2).extractLsb' 10 1 ∧
    p 5 = (ch 4).extractLsb' 0 4 ++ (ch 3).extractLsb' 7 4 ∧
    p 6 = (ch 5).extractLsb' 0 1 ++ (ch 4).extractLsb' 4 7 ∧
    p 7 = (ch 5).extractLsb' 1 8 ∧
    p 8 = (ch 6).extractLsb' 0 6 ++ (ch 5).extractLsb' 9 2 ∧
    p 9 = (ch 7).extractLsb' 0 3 ++ (ch 6).extractLsb' 6 5 ∧
    p 10 = (ch 7).extractLsb' 3 8 ∧
    p 11 = (ch 8).extractLsb' 0 8 ∧
    p 12 = (ch 9).extractLsb' 0 5 ++ (ch 8).extractLsb' 8 3 ∧
    p 13 = (ch 10).extractLsb' 0 2 ++ (ch 9).extractLsb' 5 6 ∧
    p 14 = (ch 10).extractLsb' 2 8 ∧
    p 15 = (ch 11).extractLsb' 0 7 ++ (ch 10).extractLsb' 10 1 ∧
    p 16 = (ch 12).extractLsb' 0 4 ++ (ch 11).extractLsb' 7 4 ∧
    p 17 = (ch 13).extractLsb' 0 1 ++ (ch 12).extractLsb' 4 7 ∧
    p 18 = (ch 13).extractLsb' 1 8 ∧
    p 19 = (ch 14).extractLsb' 0 6 ++ (ch 13).extractLsb' 9 2 ∧
    p 20 = (ch 15).extractLsb' 0 3 ++ (ch 14).extractLsb' 6 5 ∧
    p 21 = (ch 15).extractLsb' 3 8

/-- R110's closed form, which the spec derives: the streaming packer gives the bytes of V, the sum of c[i] times
2^(11i), low byte first. -/
def Obligations.PackIsClosedForm : Prop :=
  ∀ c : List Channel, c.length = 16 →
    pack c = (List.range 22).map fun k =>
      BitVec.ofNat 8 (((List.range 16).map fun i => (c.getD i 0).toNat * 2 ^ (11 * i)).sum / 2 ^ (8 * k))

/-- R115, which the spec derives from R110 and R114: UNPACK undoes PACK, PACK undoes UNPACK, and UNPACK of an
encoded frame's payload gives the channel values mod 2048. For a value above 2047 the third clause rests on R111, the
spec's decision D3; for a negative value it is the model's choice (assumptions/1.md). -/
def Obligations.PackAndUnpackAreInverse : Prop :=
  (∀ c : List Channel, c.length = 16 → unpack (pack c) = c) ∧
  (∀ p : List Byte, p.length = 22 → pack (unpack p) = p) ∧
  (∀ (channels : List Int) (s : State), channels.length = 16 →
    ∃ frame, exec (.encode channels) s = .next { s with result := some (.frame frame) } ∧
      (unpack (slice frame 3 24)).map (fun c => (c.toNat : Int)) = channels.map (· % 2048))

/-! ### The frame decoder -/

/-- The tests of SCAN_STEP, outcome by outcome, with the conditions R132 to R137 give each; a complete candidate is
written out as sync, length, type, payload, CRC. The two logical states of R131 are the outcomes they name. The range of
the length byte is the spec's decisions D4 and D5 (R64). -/
def Obligations.ScanOutcomesAreTheTests : Prop :=
  ∀ b : List Byte,
    (scanOutcome b = .haltShort ↔ b.length < 4) ∧
    (scanOutcome b = .nonsync ↔ 4 ≤ b.length ∧ byteAt b 0 ≠ 0xC8) ∧
    (scanOutcome b = .oversize ↔ 4 ≤ b.length ∧ byteAt b 0 = 0xC8 ∧ 64 < (byteAt b 1).toNat) ∧
    (scanOutcome b = .undersize ↔ 4 ≤ b.length ∧ byteAt b 0 = 0xC8 ∧ (byteAt b 1).toNat < 2) ∧
    (scanOutcome b = .haltWait ↔ AwaitsFrame b) ∧
    (awaitingFrame b = true ↔ scanOutcome b = .haltWait) ∧
    (seekingSync b = true ↔ scanOutcome b = .haltShort ∨ scanOutcome b = .nonsync) ∧
    (scanOutcome b = .emit ↔ ∃ type payload rest, payload.length ≤ 62 ∧
      b = [0xC8, BitVec.ofNat 8 (payload.length + 2), type] ++ payload ++ [checksum (type :: payload)] ++ rest) ∧
    (scanOutcome b = .badcrc ↔ ∃ type payload crc rest, payload.length ≤ 62 ∧ crc ≠ checksum (type :: payload) ∧
      b = [0xC8, BitVec.ofNat 8 (payload.length + 2), type] ++ payload ++ [crc] ++ rest)

/-- R130 and R131, with the bound of R139, which the spec derives: a FEED that fits completes in every state; it
appends the chunk and runs SCAN_STEP, as the relation of Safety.lean writes it from R131, until it halts, in at most
`len(buf) + len(c)` non-halting steps, each of which removes at least one byte; the result is the frames emitted in
order; the snapshot is not touched. -/
def Obligations.FeedRunsScanToHalt : Prop :=
  (∀ (chunk : List Byte) (s : State), Fits chunk s →
    ∃ n frames buf', exec (.feed chunk) s = .next { s with buf := buf', result := some (.frames frames) } ∧
      ScanMoves n (s.buf ++ chunk) frames buf' ∧ ScanHalted buf' ∧ n ≤ s.buf.length + chunk.length) ∧
  (∀ (b b' : List Byte) (frames : List Frame), ScanMove b frames b' → b'.length < b.length)

/-- R140, which the spec derives from R131: after a FEED exactly one of (i) and (ii) holds of the buffer, and it has
at most 65 bytes; RESET leaves (i). -/
def Obligations.FeedLeavesQuiescentBuffer : Prop :=
  (∀ (chunk : List Byte) (s t : State), exec (.feed chunk) s = .next t →
    ((t.buf.length ≤ 3 ∧ ¬ AwaitsFrame t.buf) ∨ (¬ t.buf.length ≤ 3 ∧ AwaitsFrame t.buf)) ∧ t.buf.length ≤ 65) ∧
  (∀ s t : State, exec .reset s = .next t → t.buf.length ≤ 3)

/-- Every frame FEED and RECEIVE emit satisfies FrameValid (R65, R131). -/
def Obligations.EmittedFramesAreValid : Prop :=
  ∀ (chunk : List Byte) (s t : State) (frames : List Frame),
    exec (.feed chunk) s = .next t ∨ exec (.receive chunk) s = .next t →
    t.result = some (.frames frames) → ∀ frame ∈ frames, FrameValid frame

/-- R145, which the spec derives from R131: from one start buffer, k FEEDs of the chunks and one FEED of their
concatenation emit the same frames and leave the same buffer. Where the whole fits, every FEED completes. -/
def Obligations.FeedDoesNotDependOnChunking : Prop :=
  ∀ (chunks : List (List Byte)) (s : State), Fits chunks.flatten s → chunks ≠ [] →
    ∃ frames t u, feedChunks chunks s = some (frames, t) ∧ exec (.feed chunks.flatten) s = .next u ∧
      u.result = some (.frames frames) ∧ u.buf = t.buf ∧ u.snap = t.snap

/-- R145, which the spec derives, carried through R168: RECEIVE of the chunks in turn and RECEIVE of their
concatenation return the same frames and leave the same buffer and the same snapshot. -/
def Obligations.ReceiveDoesNotDependOnChunking : Prop :=
  ∀ (chunks : List (List Byte)) (s : State), Fits chunks.flatten s → chunks ≠ [] →
    ∃ frames t u, receiveChunks chunks s = some (frames, t) ∧ exec (.receive chunks.flatten) s = .next u ∧
      u.result = some (.frames frames) ∧ u.buf = t.buf ∧ u.snap = t.snap

/-- R143, which the spec derives from R113 and R131: FEED of an encoded frame into an empty buffer emits exactly
that frame and leaves the buffer empty, and UNPACK of its bytes 3..24 gives the channel values back, each reduced to
11 bits. A value in 0 to 2047 comes back as it is; for a wider one the reduction is R111, the spec's decision D3, and
for a negative one it is the model's choice (assumptions/1.md). -/
def Obligations.DecoderReturnsEncodedFrame : Prop :=
  ∀ (channels : List Int) (s t : State) (frame : Frame), channels.length = 16 → s.buf = [] →
    exec (.encode channels) s = .next t → t.result = some (.frame frame) → Fits frame s →
    exec (.feed frame) t = .next { s with buf := [], result := some (.frames [frame]) } ∧
    unpack (slice frame 3 24) = channels.map (BitVec.ofInt 11)

/-- R142 (d), which the spec derives: garbage without a sync byte before a valid frame is dropped whole, and exactly
the frame is emitted. -/
def Obligations.GarbageWithoutSyncIsDropped : Prop :=
  ∀ (garbage : List Byte) (frame : Frame) (s : State), FrameValid frame → (0xC8 : Byte) ∉ garbage → s.buf = [] →
    Fits (garbage ++ frame) s →
    exec (.feed (garbage ++ frame)) s = .next { s with buf := [], result := some (.frames [frame]) }

/-- R142 (a) and (b), which the spec derives from R131. A stream is garbage, a valid frame, and more; no candidate
that starts in the garbage and extends into the frame is itself a valid frame. Then no byte of the frame is dropped
before it is emitted: the scan comes to the frame's first byte in at most `len(garbage)` steps, or halts with the
frame whole in the buffer behind a rest of the garbage. With 66 bytes from the frame's first byte it does come
there, and FEED emits the frame. -/
def Obligations.ResynchronizationDeliversFrame : Prop :=
  ∀ (garbage frame more : List Byte), FrameValid frame →
    (∀ j < garbage.length, garbage.length < j + (candidateAt (garbage ++ frame ++ more) j).length →
      ¬ FrameValid (candidateAt (garbage ++ frame ++ more) j)) →
    ∃ n before rest, ScanMoves n (garbage ++ frame ++ more) before (rest ++ frame ++ more) ∧ rest <:+ garbage ∧
      n ≤ garbage.length ∧ (rest = [] ∨ ScanHalted (rest ++ frame ++ more)) ∧
      (66 ≤ frame.length + more.length → rest = [] ∧
        ∀ s : State, s.buf = [] → Fits (garbage ++ frame ++ more) s → ∃ after buf',
          exec (.feed (garbage ++ frame ++ more)) s =
            .next { s with buf := buf', result := some (.frames (before ++ frame :: after)) })

/-- R132 and R135: with fewer than 4 bytes, or a plausible candidate that is not complete, the scan halts at once:
nothing is examined or dropped, and every byte stays for a later FEED. -/
def Obligations.HaltKeepsEveryByte : Prop :=
  ∀ (chunk : List Byte) (s : State), Fits chunk s →
    (s.buf ++ chunk).length < 4 ∨ AwaitsFrame (s.buf ++ chunk) →
    exec (.feed chunk) s = .next { s with buf := s.buf ++ chunk, result := some (.frames []) }

/-- R144, the spec's decision D6: with a finite capacity, a FEED is refused exactly when the append would exceed it;
with none, no FEED is refused. RECEIVE is refused alike (R168, R211). The capacity stands in State
(assumptions/6.md). -/
def Obligations.OverflowingFeedIsRefused : Prop :=
  ∀ (chunk : List Byte) (s : State),
    (∀ cap, s.bufCap = some cap → cap < s.buf.length + chunk.length →
      exec (.feed chunk) s = .refused .bufferOverflow ∧ exec (.receive chunk) s = .refused .bufferOverflow) ∧
    (∀ cap, s.bufCap = some cap → s.buf.length + chunk.length ≤ cap →
      (∃ t, exec (.feed chunk) s = .next t) ∧ ∃ t, exec (.receive chunk) s = .next t) ∧
    (s.bufCap = none → (∃ t, exec (.feed chunk) s = .next t) ∧ ∃ t, exec (.receive chunk) s = .next t)

/-- R22: only FEED (and the FEED inside RECEIVE) and RESET change the buffer; FEED appends at the end and removes
from the front only, so what it leaves is the end of what was there; RECEIVE leaves what its FEED leaves; RESET
empties it. -/
def Obligations.BufferChangesOnlyByFeedAndReset : Prop :=
  ∀ (i : Instr) (s t : State), exec i s = .next t →
    (∀ chunk, i = .feed chunk → t.buf <:+ s.buf ++ chunk) ∧
    (∀ chunk, i = .receive chunk → ∃ fed, exec (.feed chunk) s = .next fed ∧ t.buf = fed.buf) ∧
    (i = .reset → t.buf = []) ∧
    ((∀ chunk, i ≠ .feed chunk ∧ i ≠ .receive chunk) → i ≠ .reset → t.buf = s.buf)

/-- R133, R136 and R138, with R137 and R134 (whose bounds are the spec's decisions D4 and D5), one SCAN_STEP at a time.
Where the buffer with the chunk appended starts with a byte that is no sync byte, with a length byte out of range,
or with a complete candidate whose CRC is wrong, FEED does exactly what it does with the first byte gone: nothing
signals the drop. Where it starts with a complete candidate whose CRC is right, FEED emits that frame and then does
what it does with the frame removed. -/
def Obligations.FeedTakesOneScanStep : Prop :=
  ∀ (chunk : List Byte) (s : State), Fits chunk s →
    (4 ≤ (s.buf ++ chunk).length → byteAt (s.buf ++ chunk) 0 ≠ 0xC8 →
      exec (.feed chunk) s = exec (.feed []) { s with buf := (s.buf ++ chunk).drop 1 }) ∧
    (4 ≤ (s.buf ++ chunk).length → byteAt (s.buf ++ chunk) 0 = 0xC8 →
      64 < (byteAt (s.buf ++ chunk) 1).toNat ∨ (byteAt (s.buf ++ chunk) 1).toNat < 2 →
      exec (.feed chunk) s = exec (.feed []) { s with buf := (s.buf ++ chunk).drop 1 }) ∧
    (∀ (type crc : Byte) (payload rest : List Byte), payload.length ≤ 62 →
      s.buf ++ chunk = [0xC8, BitVec.ofNat 8 (payload.length + 2), type] ++ payload ++ [crc] ++ rest →
      (crc ≠ checksum (type :: payload) →
        exec (.feed chunk) s = exec (.feed []) { s with buf := (s.buf ++ chunk).drop 1 }) ∧
      (crc = checksum (type :: payload) → ∃ t frames, exec (.feed []) { s with buf := rest } = .next t ∧
        t.result = some (.frames frames) ∧
        exec (.feed chunk) s = .next { t with result := some (.frames
          (([0xC8, BitVec.ofNat 8 (payload.length + 2), type] ++ payload ++ [crc]) :: frames)) }))

/-! ### The telemetry parser -/

/-- PARSE completes on exactly the frames that satisfy FrameValid and refuses every other (R160, R205, the spec's
decision D18). It has no result, which the model writes as `done` (assumptions/5.md). -/
def Obligations.ParseRefusesExactlyInvalidFrames : Prop :=
  ∀ (frame : Frame) (s : State),
    (FrameValid frame → ∃ t, exec (.parse frame) s = .next t ∧ t.result = some .done ∧ t.buf = s.buf ∧ PortsKept s t) ∧
    (¬ FrameValid frame → exec (.parse frame) s = .refused .invalidFrame)

/-- R161: a valid frame of type 0x14 with at least 10 payload bytes writes the ten link-statistics fields from frame
bytes 3 to 12, the two SNRs as two's complement, and nothing else. -/
def Obligations.ParseCommitsLinkStatistics : Prop :=
  ∀ (frame : Frame) (s : State), FrameValid frame → byteAt frame 2 = 0x14 → 10 ≤ (byteAt frame 1).toNat - 2 →
    exec (.parse frame) s = .next { s with
      snap := { s.snap with
        ls_uplink_rssi_1 := some (byteAt frame 3)
        ls_uplink_rssi_2 := some (byteAt frame 4)
        ls_uplink_link_quality := some (byteAt frame 5)
        ls_uplink_snr := some (byteAt frame 6).toInt
        ls_active_antenna := some (byteAt frame 7)
        ls_rf_mode := some (byteAt frame 8)
        ls_uplink_tx_power := some (byteAt frame 9)
        ls_downlink_rssi := some (byteAt frame 10)
        ls_downlink_link_quality := some (byteAt frame 11)
        ls_downlink_snr := some (byteAt frame 12).toInt }
      result := some .done }

/-- R162: a valid frame of type 0x08 with at least 7 payload bytes writes the four battery fields, the 16-bit ones
little endian, and nothing else. -/
def Obligations.ParseCommitsBattery : Prop :=
  ∀ (frame : Frame) (s : State), FrameValid frame → byteAt frame 2 = 0x08 → 7 ≤ (byteAt frame 1).toNat - 2 →
    exec (.parse frame) s = .next { s with
      snap := { s.snap with
        bat_voltage := some (byteAt frame 4 ++ byteAt frame 3)
        bat_current := some (byteAt frame 6 ++ byteAt frame 5)
        bat_capacity := some (byteAt frame 8 ++ byteAt frame 7)
        bat_remaining := some (byteAt frame 9) }
      result := some .done }

/-- R163: a valid frame of type 0x02 with at least 15 payload bytes writes the five GPS fields, little endian,
latitude, longitude and altitude as two's complement of 32, 32 and 24 bits, and nothing else. -/
def Obligations.ParseCommitsGps : Prop :=
  ∀ (frame : Frame) (s : State), FrameValid frame → byteAt frame 2 = 0x02 → 15 ≤ (byteAt frame 1).toNat - 2 →
    exec (.parse frame) s = .next { s with
      snap := { s.snap with
        gps_latitude := some (byteAt frame 6 ++ byteAt frame 5 ++ byteAt frame 4 ++ byteAt frame 3).toInt
        gps_longitude := some (byteAt frame 10 ++ byteAt frame 9 ++ byteAt frame 8 ++ byteAt frame 7).toInt
        gps_ground_speed := some (byteAt frame 12 ++ byteAt frame 11)
        gps_heading := some (byteAt frame 14 ++ byteAt frame 13)
        gps_altitude := some (byteAt frame 17 ++ byteAt frame 16 ++ byteAt frame 15).toInt }
      result := some .done }

/-- R164: a valid frame of any type other than 0x14, 0x08 and 0x02 changes no state. -/
def Obligations.ParseIgnoresOtherTypes : Prop :=
  ∀ (frame : Frame) (s : State), FrameValid frame →
    byteAt frame 2 ≠ 0x14 → byteAt frame 2 ≠ 0x08 → byteAt frame 2 ≠ 0x02 →
    exec (.parse frame) s = .next { s with result := some .done }

/-- R165: a valid frame whose payload is shorter than its type requires changes no state; no field is written. -/
def Obligations.ParseIgnoresShortPayloads : Prop :=
  ∀ (frame : Frame) (s : State), FrameValid frame →
    (byteAt frame 2 = 0x14 ∧ (byteAt frame 1).toNat - 2 < 10) ∨
      (byteAt frame 2 = 0x08 ∧ (byteAt frame 1).toNat - 2 < 7) ∨
      (byteAt frame 2 = 0x02 ∧ (byteAt frame 1).toNat - 2 < 15) →
    exec (.parse frame) s = .next { s with result := some .done }

/-- R166, the spec's decision D7: a payload longer than its type requires is parsed from its first 10, 7 or 15
bytes: whatever bytes follow them in the frame, PARSE ends in the same state as on the frame that carries those
bytes alone. -/
def Obligations.ParseIgnoresSurplusBytes : Prop :=
  ∀ (type : Byte) (required : Nat) (payload surplus : List Byte) (s : State),
    (type = 0x14 ∧ required = 10) ∨ (type = 0x08 ∧ required = 7) ∨ (type = 0x02 ∧ required = 15) →
    payload.length = required → payload.length + surplus.length ≤ 62 →
    ∃ t, exec (.parse (composeFrame type (payload ++ surplus))) s = .next t ∧
      exec (.parse (composeFrame type payload)) s = .next t

/-- Each packet-type row is PARSE of the validated frame with its type byte and payload, in every state: the rows
give the machine no behaviour of their own (R160, R164, R66; assumptions/2.md). -/
def Obligations.PacketTypeRowsAreParse : Prop :=
  ∀ (payload : List Byte) (s : State), payload.length ≤ 62 →
    exec (.typeLinkStatistics payload) s = exec (.parse (composeFrame 0x14 payload)) s ∧
    exec (.typeBatterySensor payload) s = exec (.parse (composeFrame 0x08 payload)) s ∧
    exec (.typeGps payload) s = exec (.parse (composeFrame 0x02 payload)) s ∧
    exec (.typeRcChannelsPacked payload) s = exec (.parse (composeFrame 0x16 payload)) s ∧
    (∀ type, exec (.typeOther type payload) s = exec (.parse (composeFrame type payload)) s) ∧
    ∀ type, FrameValid (composeFrame type payload)

/-- Each packet-type row completes for every payload a frame can carry: TYPE_LINK_STATISTICS, TYPE_BATTERY_SENSOR
and TYPE_GPS write their type's fields from a payload of the required length or more and nothing from a shorter one,
TYPE_RC_CHANNELS_PACKED and TYPE_OTHER change no state (R161 to R166). That the rows run so is the model's choice,
with the refusal of a payload no frame carries (assumptions/2.md) and the result `done` (assumptions/5.md). -/
def Obligations.PacketTypeRowsComplete : Prop :=
  ∀ (payload : List Byte) (s : State),
    (payload.length ≤ 62 →
      (∃ snap, exec (.typeLinkStatistics payload) s = .next { s with snap := snap, result := some .done } ∧
        (payload.length < 10 → snap = s.snap) ∧
        (10 ≤ payload.length → snap = { s.snap with
          ls_uplink_rssi_1 := payload[0]?, ls_uplink_rssi_2 := payload[1]?, ls_uplink_link_quality := payload[2]?,
          ls_uplink_snr := payload[3]?.map BitVec.toInt, ls_active_antenna := payload[4]?, ls_rf_mode := payload[5]?,
          ls_uplink_tx_power := payload[6]?, ls_downlink_rssi := payload[7]?, ls_downlink_link_quality := payload[8]?,
          ls_downlink_snr := payload[9]?.map BitVec.toInt })) ∧
      (∃ snap, exec (.typeBatterySensor payload) s = .next { s with snap := snap, result := some .done } ∧
        (payload.length < 7 → snap = s.snap) ∧
        (7 ≤ payload.length → snap = { s.snap with
          bat_voltage := some (byteAt payload 1 ++ byteAt payload 0)
          bat_current := some (byteAt payload 3 ++ byteAt payload 2)
          bat_capacity := some (byteAt payload 5 ++ byteAt payload 4)
          bat_remaining := payload[6]? })) ∧
      (∃ snap, exec (.typeGps payload) s = .next { s with snap := snap, result := some .done } ∧
        (payload.length < 15 → snap = s.snap) ∧
        (15 ≤ payload.length → snap = { s.snap with
          gps_latitude := some (byteAt payload 3 ++ byteAt payload 2 ++ byteAt payload 1 ++ byteAt payload 0).toInt
          gps_longitude := some (byteAt payload 7 ++ byteAt payload 6 ++ byteAt payload 5 ++ byteAt payload 4).toInt
          gps_ground_speed := some (byteAt payload 9 ++ byteAt payload 8)
          gps_heading := some (byteAt payload 11 ++ byteAt payload 10)
          gps_altitude := some (byteAt payload 14 ++ byteAt payload 13 ++ byteAt payload 12).toInt })) ∧
      exec (.typeRcChannelsPacked payload) s = .next { s with result := some .done } ∧
      (∀ type, isOtherType type = true → exec (.typeOther type payload) s = .next { s with result := some .done })) ∧
    (62 < payload.length →
      exec (.typeLinkStatistics payload) s = .refused .invalidFrame ∧
      exec (.typeBatterySensor payload) s = .refused .invalidFrame ∧
      exec (.typeGps payload) s = .refused .invalidFrame ∧
      exec (.typeRcChannelsPacked payload) s = .refused .invalidFrame ∧
      ∀ type, exec (.typeOther type payload) s = .refused .invalidFrame)

/-- R27: a field that holds a value keeps holding one through every operation but RESET. A field changes only by
RESET or by PARSE, alone or inside RECEIVE, of a valid frame of the field's packet type, and then it holds the value
that frame supplies, which is the same whatever the snapshot held. -/
def Obligations.SnapshotFieldsChangeOnlyByTheirType : Prop :=
  ∀ (i : Instr) (s t : State) (f : Field), exec i s = .next t →
    (i ≠ .reset → s.snap.read f ≠ none → t.snap.read f ≠ none) ∧
    (t.snap.read f ≠ s.snap.read f → i = .reset ∨
      ∃ frame, ContainsParseOf i t.result frame ∧ FrameValid frame ∧ byteAt frame 2 = f.writtenBy ∧
        ∃ v, t.snap.read f = some v ∧ ∀ s' t', exec (.parse frame) s' = .next t' → t'.snap.read f = some v)

/-! ### RECEIVE, READ and the reserved code -/

/-- R168: a RECEIVE that fits completes; its result and buffer are FEED's, and its snapshot is that of PARSE of each
emitted frame in emission order, none of which is refused. A RECEIVE that does not fit is refused as its FEED is. -/
def Obligations.ReceiveIsFeedThenParse : Prop :=
  ∀ (chunk : List Byte) (s : State),
    (Fits chunk s →
      ∃ fed frames parsed, exec (.feed chunk) s = .next fed ∧ fed.result = some (.frames frames) ∧
        parseChain frames fed = some parsed ∧
        exec (.receive chunk) s = .next
          { s with buf := fed.buf, snap := parsed.snap, result := some (.frames frames) }) ∧
    (∀ r, exec (.feed chunk) s = .refused r → exec (.receive chunk) s = .refused r)

/-- R169 and R28: READ returns the whole snapshot, one pair for each of the 19 fields, and changes nothing; a second
READ returns the same. -/
def Obligations.ReadReturnsWholeSnapshot : Prop :=
  ∀ s : State, ∃ t, exec .read s = .next t ∧ t = { s with result := some (.snapshot s.snap) } ∧
    s.snap.pairs.length = 19 ∧ (∀ f v, (f, v) ∈ s.snap.pairs ↔ v = s.snap.read f) ∧
    exec .read t = .next t

/-- Command code 0b111 is refused as ReservedCommand in every state (R75, R211, the spec's decision D2). That it is so
whatever operand is presented is the model's choice (assumptions/9.md). -/
def Obligations.ReservedCodeIsRefused : Prop :=
  ∀ (operand : List Int) (s : State),
    decode (.operation 0b111 operand) = .ok (.reserved111 operand) ∧
    exec (.reserved111 operand) s = .refused .reservedCommand

/-- R211 and R200, the spec's decisions D2, D6 and D18: the refusals are a closed list. A well-formed instruction is
refused exactly for the listed reason under the listed condition, and completes in every other case. -/
def Obligations.RefusalsAreTheClosedList : Prop :=
  ∀ (i : Instr) (s : State), WellFormed i = true →
    (∀ r, exec i s = .refused r ↔
      (r = .reservedCommand ∧ ∃ operand, i = .reserved111 operand) ∨
      (r = .bufferOverflow ∧ ∃ chunk cap, (i = .feed chunk ∨ i = .receive chunk) ∧ s.bufCap = some cap ∧
        cap < s.buf.length + chunk.length) ∨
      (r = .invalidFrame ∧ ∃ frame, i = .parse frame ∧ ¬ FrameValid frame)) ∧
    ((∃ r, exec i s = .refused r) ∨ ∃ t, exec i s = .next t)

/-! ### Whole-machine rules -/

/-- CHECKSUM, ENCODE and READ have no side effect on the block: in every state, nothing but the result port changes;
and no instruction touches the parameter, an agent's queue or the order to come (R49, R116, R222), which stand in the
model's State (assumptions/4.md, 6.md), as the result port does (assumptions/5.md). FEED does not touch the snapshot
(R130). -/
def Obligations.InstructionFrames : Prop :=
  ∀ (i : Instr) (s t : State), exec i s = .next t → PortsKept s t ∧
    (∀ bytes, i = .checksum bytes → t.buf = s.buf ∧ t.snap = s.snap) ∧
    (∀ channels, i = .encode channels → t.buf = s.buf ∧ t.snap = s.snap) ∧
    (i = .read → t.buf = s.buf ∧ t.snap = s.snap) ∧
    (∀ chunk, i = .feed chunk → t.snap = s.snap)

/-- Every step keeps the invariant, from every state that has it: the buffer is quiescent (R140), within a finite
capacity (R24; it stands in State, assumptions/6.md), and every present field holds a value of its type (R25; its form
is assumptions/12.md). -/
def Obligations.EveryStepKeepsInvariant : Prop :=
  ∀ s t : State, s.Inv → step s = .next t → t.Inv

/-- The invariant holds at reset. -/
def Obligations.InvariantHoldsAtReset : Prop :=
  State.reset.Inv

/-- R170, informative: the stated interpretations of the raw values; metres carry the open offset `GPS_ALT_OFFSET`,
of which nothing is known (assumptions/7.md). -/
def Obligations.InterpretationsScaleRawValues : Prop :=
  (∀ raw : BitVec 16, volts raw * 100 = raw.toNat ∧ amps raw * 100 = raw.toNat ∧ milliampHours raw = raw.toNat ∧
    kmPerHour raw = raw.toNat ∧ headingDegrees raw * 100 = raw.toNat) ∧
  (∀ raw : BitVec 8, percent raw = raw.toNat) ∧
  (∀ raw : Int, degrees raw * 10 ^ 7 = raw ∧ metres raw * 100 = raw - Config.gpsAltOffset)
end

