-- ==== Sys2Proof/Laws/State.lean ====
section
/-! SUPPORT. One lemma for each field of State under each update, so that no later proof unfolds a record update. -/

namespace Sys2Proof.Machine

@[simp] theorem State.withBuf_buf (s : State) (b : List Byte) : (s.withBuf b).buf = b := rfl
@[simp] theorem State.withBuf_snap (s : State) (b : List Byte) : (s.withBuf b).snap = s.snap := rfl
@[simp] theorem State.withBuf_bufCap (s : State) (b : List Byte) : (s.withBuf b).bufCap = s.bufCap := rfl
@[simp] theorem State.withBuf_result (s : State) (b : List Byte) : (s.withBuf b).result = s.result := rfl
@[simp] theorem State.withBuf_writer (s : State) (b : List Byte) : (s.withBuf b).writer = s.writer := rfl
@[simp] theorem State.withBuf_reader (s : State) (b : List Byte) : (s.withBuf b).reader = s.reader := rfl
@[simp] theorem State.withBuf_host (s : State) (b : List Byte) : (s.withBuf b).host = s.host := rfl
@[simp] theorem State.withBuf_schedule (s : State) (b : List Byte) : (s.withBuf b).schedule = s.schedule := rfl

@[simp] theorem State.withSnap_buf (s : State) (x : Snapshot) : (s.withSnap x).buf = s.buf := rfl
@[simp] theorem State.withSnap_snap (s : State) (x : Snapshot) : (s.withSnap x).snap = x := rfl
@[simp] theorem State.withSnap_bufCap (s : State) (x : Snapshot) : (s.withSnap x).bufCap = s.bufCap := rfl
@[simp] theorem State.withSnap_result (s : State) (x : Snapshot) : (s.withSnap x).result = s.result := rfl
@[simp] theorem State.withSnap_writer (s : State) (x : Snapshot) : (s.withSnap x).writer = s.writer := rfl
@[simp] theorem State.withSnap_reader (s : State) (x : Snapshot) : (s.withSnap x).reader = s.reader := rfl
@[simp] theorem State.withSnap_host (s : State) (x : Snapshot) : (s.withSnap x).host = s.host := rfl
@[simp] theorem State.withSnap_schedule (s : State) (x : Snapshot) : (s.withSnap x).schedule = s.schedule := rfl

@[simp] theorem State.withResult_buf (s : State) (r : Result) : (s.withResult r).buf = s.buf := rfl
@[simp] theorem State.withResult_snap (s : State) (r : Result) : (s.withResult r).snap = s.snap := rfl
@[simp] theorem State.withResult_bufCap (s : State) (r : Result) : (s.withResult r).bufCap = s.bufCap := rfl
@[simp] theorem State.withResult_result (s : State) (r : Result) : (s.withResult r).result = some r := rfl
@[simp] theorem State.withResult_writer (s : State) (r : Result) : (s.withResult r).writer = s.writer := rfl
@[simp] theorem State.withResult_reader (s : State) (r : Result) : (s.withResult r).reader = s.reader := rfl
@[simp] theorem State.withResult_host (s : State) (r : Result) : (s.withResult r).host = s.host := rfl
@[simp] theorem State.withResult_schedule (s : State) (r : Result) : (s.withResult r).schedule = s.schedule := rfl

@[simp] theorem State.withSchedule_buf (s : State) (l : List Agent) : (s.withSchedule l).buf = s.buf := rfl
@[simp] theorem State.withSchedule_snap (s : State) (l : List Agent) : (s.withSchedule l).snap = s.snap := rfl
@[simp] theorem State.withSchedule_bufCap (s : State) (l : List Agent) : (s.withSchedule l).bufCap = s.bufCap := rfl
@[simp] theorem State.withSchedule_result (s : State) (l : List Agent) : (s.withSchedule l).result = s.result := rfl
@[simp] theorem State.withSchedule_writer (s : State) (l : List Agent) : (s.withSchedule l).writer = s.writer := rfl
@[simp] theorem State.withSchedule_reader (s : State) (l : List Agent) : (s.withSchedule l).reader = s.reader := rfl
@[simp] theorem State.withSchedule_host (s : State) (l : List Agent) : (s.withSchedule l).host = s.host := rfl
@[simp] theorem State.withSchedule_schedule (s : State) (l : List Agent) : (s.withSchedule l).schedule = l := rfl

@[simp] theorem State.withPort_buf (s : State) (a : Agent) (p : AgentPort) : (s.withPort a p).buf = s.buf := by
  cases a <;> rfl
@[simp] theorem State.withPort_snap (s : State) (a : Agent) (p : AgentPort) : (s.withPort a p).snap = s.snap := by
  cases a <;> rfl
@[simp] theorem State.withPort_bufCap (s : State) (a : Agent) (p : AgentPort) : (s.withPort a p).bufCap = s.bufCap := by
  cases a <;> rfl
@[simp] theorem State.withPort_result (s : State) (a : Agent) (p : AgentPort) : (s.withPort a p).result = s.result := by
  cases a <;> rfl
@[simp] theorem State.withPort_schedule (s : State) (a : Agent) (p : AgentPort) : (s.withPort a p).schedule = s.schedule := by
  cases a <;> rfl

@[simp] theorem State.port_withPort_same (s : State) (a : Agent) (p : AgentPort) : (s.withPort a p).port a = p := by
  cases a <;> rfl

theorem State.port_withPort_other (s : State) {a b : Agent} (h : b ≠ a) (p : AgentPort) :
    (s.withPort a p).port b = s.port b := by
  cases a <;> cases b <;> first | rfl | exact absurd rfl h

@[simp] theorem State.port_withSchedule (s : State) (l : List Agent) (a : Agent) :
    (s.withSchedule l).port a = s.port a := by
  cases a <;> rfl

@[simp] theorem State.port_withResult (s : State) (r : Result) (a : Agent) : (s.withResult r).port a = s.port a := by
  cases a <;> rfl

@[simp] theorem State.port_withBuf (s : State) (b : List Byte) (a : Agent) : (s.withBuf b).port a = s.port a := by
  cases a <;> rfl

@[simp] theorem State.port_withSnap (s : State) (x : Snapshot) (a : Agent) : (s.withSnap x).port a = s.port a := by
  cases a <;> rfl

@[simp] theorem State.port_writer (s : State) : s.port .writer = s.writer := rfl

@[simp] theorem State.port_reader (s : State) : s.port .reader = s.reader := rfl

@[simp] theorem State.port_host (s : State) : s.port .host = s.host := rfl

@[simp] theorem State.deliver_buf (s : State) (a : Agent) : (s.deliver a).buf = s.buf := by
  simp [State.deliver]

@[simp] theorem State.deliver_snap (s : State) (a : Agent) : (s.deliver a).snap = s.snap := by
  simp [State.deliver]

@[simp] theorem State.deliver_bufCap (s : State) (a : Agent) : (s.deliver a).bufCap = s.bufCap := by
  simp [State.deliver]

@[simp] theorem State.deliver_result (s : State) (a : Agent) : (s.deliver a).result = s.result := by
  simp [State.deliver]

@[simp] theorem State.deliver_schedule (s : State) (a : Agent) : (s.deliver a).schedule = s.schedule.tail := rfl

@[simp] theorem State.deliver_port_same (s : State) (a : Agent) :
    (s.deliver a).port a =
      { pending := (s.port a).pending.tail, results := (s.port a).results ++ s.result.toList } := by
  simp [State.deliver]

theorem State.deliver_port_other (s : State) {a b : Agent} (h : b ≠ a) : (s.deliver a).port b = s.port b := by
  simp [State.deliver, State.port_withPort_other s h]

@[simp] theorem State.issueFirst_schedule (s : State) (a : Agent) (w : PortWord) :
    (s.issueFirst a w).schedule = a :: s.schedule := rfl

@[simp] theorem State.issueFirst_port_same (s : State) (a : Agent) (w : PortWord) :
    (s.issueFirst a w).port a = { pending := w :: (s.port a).pending, results := (s.port a).results } := by
  simp [State.issueFirst]

/-- Every field of the snapshot is absent at reset (R26). -/
@[simp] theorem Snapshot.read_absent (f : Field) : Snapshot.absent.read f = none := by
  cases f <;> rfl

end Sys2Proof.Machine
end

