-- ==== Sys2Proof/Laws/Ops.lean ====
section
/-! SUPPORT. For each shared operation, what it can do, said once. -/

namespace Sys2Proof.Machine

/-! ### Sequences -/

@[simp] theorem byteAt_cons_zero (b : Byte) (bs : List Byte) : byteAt (b :: bs) 0 = b := rfl

@[simp] theorem byteAt_cons_succ (b : Byte) (bs : List Byte) (i : Nat) : byteAt (b :: bs) (i + 1) = byteAt bs i := by
  simp [byteAt]

/-- A byte of the first part of a concatenation. -/
theorem byteAt_append_left {a b : List Byte} {i : Nat} (h : i < a.length) : byteAt (a ++ b) i = byteAt a i := by
  simp [byteAt, List.getElem?_append_left h]

/-- A byte of the second part of a concatenation. -/
theorem byteAt_append_right {a b : List Byte} {i : Nat} (h : a.length ≤ i) :
    byteAt (a ++ b) i = byteAt b (i - a.length) := by
  simp [byteAt, List.getElem?_append_right h]

theorem byteAt_of_lt {a : List Byte} {i : Nat} (h : i < a.length) : byteAt a i = a[i] := by
  simp [byteAt, h]

/-- A sub-sequence of the first part of a concatenation is a sub-sequence of that part. -/
theorem slice_append_left {a b : List Byte} {i j : Nat} (h : j < a.length) : slice (a ++ b) i j = slice a i j := by
  unfold slice
  rw [List.drop_append, List.take_append_of_le_length]
  simp only [List.length_drop]
  omega

/-! ### The CRC -/

/-- CRC8_STEP sees its operands only through their XOR (R100). -/
theorem crc8Step_xor (acc b : Byte) : crc8Step acc b = crcShifts 8 (acc ^^^ b) := rfl

/-- One shift distributes over XOR: the step is linear over GF(2) (R103). -/
theorem crcShift_xor (a b : Byte) : crcShift (a ^^^ b) = crcShift a ^^^ crcShift b := by
  unfold crcShift
  have cancel : ∀ x : Byte, crcPoly ^^^ (crcPoly ^^^ x) = x := fun x => by simp
  cases ha : a.msb <;> cases hb : b.msb <;> simp only [BitVec.msb_xor, ha, hb, BitVec.shiftLeft_xor_distrib,
    Bool.xor_false, Bool.false_xor, Bool.xor_self, if_true, if_false, Bool.false_eq_true]
  · ac_rfl
  · ac_rfl
  · rw [show (a <<< 1 ^^^ crcPoly) ^^^ (b <<< 1 ^^^ crcPoly) = crcPoly ^^^ (crcPoly ^^^ (a <<< 1 ^^^ b <<< 1)) by
      ac_rfl, cancel]

theorem crcShifts_xor (n : Nat) (a b : Byte) : crcShifts n (a ^^^ b) = crcShifts n a ^^^ crcShifts n b := by
  induction n generalizing a b with
  | zero => rfl
  | succ n ih => simp [crcShifts, crcShift_xor, ih]

/-- The checksum of a concatenation folds on from the first part's (R103 (c)). -/
theorem checksum_append (a b : List Byte) : checksum (a ++ b) = b.foldl crc8Step (checksum a) := by
  simp [checksum]

/-! ### The scan loop -/

/-- The scan loop, one outcome at a time, while it has fuel. -/
theorem scan_succ (fuel : Nat) (buf : List Byte) :
    scan (fuel + 1) buf =
      match scanOutcome buf with
      | .haltShort | .haltWait => ([], buf)
      | .nonsync | .oversize | .undersize | .badcrc => scan fuel (buf.drop 1)
      | .emit => (candidate buf :: (scan fuel (buf.drop (lengthByte buf + 2))).1,
          (scan fuel (buf.drop (lengthByte buf + 2))).2) := rfl

/-- An outcome that does not halt is reached only with at least 4 bytes in the buffer (R131). -/
theorem four_le_of_not_short {buf : List Byte} (h : scanOutcome buf ≠ .haltShort) : 4 ≤ buf.length := by
  by_contra hc
  exact h (by simp [scanOutcome, Nat.lt_of_not_le hc])

/-- Fewer than 4 bytes halt the scan at once (R132). -/
theorem scan_of_short (fuel : Nat) {buf : List Byte} (h : buf.length < 4) : scan fuel buf = ([], buf) := by
  cases fuel with
  | zero => rfl
  | succ fuel => simp [scan_succ, scanOutcome, h]

/-- As many steps as bytes are enough: more fuel changes nothing (R139). -/
theorem scan_fuel {fuel : Nat} {buf : List Byte} (h : buf.length ≤ fuel) : scan fuel buf = scanAll buf := by
  have key : ∀ (m n : Nat) (b : List Byte), b.length ≤ m → b.length ≤ n → scan m b = scan n b := by
    intro m
    induction m with
    | zero =>
      intro n b hm _
      rw [scan_of_short 0 (by omega), scan_of_short n (by omega)]
    | succ m ih =>
      intro n b hm hn
      cases n with
      | zero => rw [scan_of_short 0 (by omega), scan_of_short (m + 1) (by omega)]
      | succ n =>
        have drop : ∀ k, 0 < k → scan m (b.drop k) = scan n (b.drop k) := fun k hk =>
          ih n _ (by simp only [List.length_drop]; omega) (by simp only [List.length_drop]; omega)
        rw [scan_succ, scan_succ, drop 1 (by omega), drop (lengthByte b + 2) (by omega)]
  exact key fuel buf.length buf h le_rfl

/-- The scan run to its halt, one outcome at a time (R131). -/
theorem scanAll_eq (buf : List Byte) :
    scanAll buf =
      match scanOutcome buf with
      | .haltShort | .haltWait => ([], buf)
      | .nonsync | .oversize | .undersize | .badcrc => scanAll (buf.drop 1)
      | .emit => (candidate buf :: (scanAll (buf.drop (lengthByte buf + 2))).1,
          (scanAll (buf.drop (lengthByte buf + 2))).2) := by
  rw [← scan_fuel (buf := buf) (Nat.le_succ _), scan_succ,
    scan_fuel (buf := buf.drop 1) (by simp), scan_fuel (buf := buf.drop (lengthByte buf + 2)) (by simp)]

/-- A FEED overflows exactly when a finite capacity is exceeded (R144). -/
theorem overflows_iff (s : State) (chunk : List Byte) :
    overflows s chunk = true ↔ ∃ cap, s.bufCap = some cap ∧ cap < s.buf.length + chunk.length := by
  unfold overflows
  cases s.bufCap <;> simp

/-! ### The meanings: what a next state of each looks like -/

/-- FEED answers next only with the scanned buffer and the emitted frames. -/
theorem execFeed_next {chunk : List Byte} {s t : State} (h : execFeed chunk s = .next t) :
    overflows s chunk = false ∧
      t = (s.withBuf (scanAll (s.buf ++ chunk)).2).withResult (.frames (scanAll (s.buf ++ chunk)).1) := by
  unfold execFeed returnResult refuse bufAppend at h
  split at h
  · cases h
  · rename_i ho
    exact ⟨by simpa using ho, (Host.Outcome.next.inj h).symm⟩

/-- RECEIVE answers next only with FEED's buffer and frames and the snapshot of their PARSEs. -/
theorem execReceive_next {chunk : List Byte} {s t : State} (h : execReceive chunk s = .next t) :
    overflows s chunk = false ∧ ∃ snap, parseFrames (scanAll (s.buf ++ chunk)).1 s.snap = some snap ∧
      t = ((s.withBuf (scanAll (s.buf ++ chunk)).2).withSnap snap).withResult
        (.frames (scanAll (s.buf ++ chunk)).1) := by
  unfold execReceive returnResult refuse bufAppend at h
  split at h
  · cases h
  · rename_i ho
    simp only at h
    split at h
    · rename_i snap hp
      exact ⟨by simpa using ho, snap, hp, (Host.Outcome.next.inj h).symm⟩
    · cases h

/-- PARSE answers next only on a valid frame, with its payload committed. -/
theorem execParse_next {frame : Frame} {s t : State} (h : execParse frame s = .next t) :
    FrameValid frame ∧
      t = (s.withSnap (commitPayload (typeByte frame) (payloadOf frame) s.snap)).withResult .done := by
  unfold execParse parseFrame returnResult refuse at h
  by_cases hv : FrameValid frame
  · rw [if_pos hv] at h
    exact ⟨hv, (Host.Outcome.next.inj h).symm⟩
  · rw [if_neg hv] at h
    cases h

/-- A packet-type row answers next only for a payload a frame carries, committed under its type. -/
theorem parsePayload_next {type : Byte} {payload : List Byte} {s t : State}
    (h : parsePayload type payload s = .next t) :
    payload.length ≤ maxPayload ∧ t = (s.withSnap (commitPayload type payload s.snap)).withResult .done := by
  unfold parsePayload returnResult refuse at h
  split at h
  · rename_i hp
    exact ⟨hp, (Host.Outcome.next.inj h).symm⟩
  · cases h

/-- ENCODE answers next with a frame or with the error, and nothing else changes. -/
theorem execEncode_next {channels : List Int} {s t : State} (h : execEncode channels s = .next t) :
    t = s.withResult (.frame (encodeFrame channels)) ∨ t = s.withResult (.inputLengthError channels.length) := by
  unfold execEncode returnResult raiseInputLengthError at h
  split at h
  · exact .inl (Host.Outcome.next.inj h).symm
  · exact .inr (Host.Outcome.next.inj h).symm

end Sys2Proof.Machine
end

