-- ==== Sys2Proof/Laws/PerInstr.lean ====
section
/-! SUPPORT. Statements made per instruction. Family TableCode: the encoder writes the code that spec/opcode_table.json
gives the row, in the row's format, and nothing else in that place. -/

namespace Sys2Proof.Laws

/-- A row's format and bits: the table's "format", "mask" and "match". -/
structure TableRow where
  isOperation : Bool
  mask : Nat
  value : Nat
  deriving DecidableEq, Repr

/-- The rows of spec/opcode_table.json. -/
def rowOf : Instr → TableRow
  | .reset => ⟨true, 7, 0⟩
  | .checksum _ => ⟨true, 7, 1⟩
  | .encode _ => ⟨true, 7, 2⟩
  | .feed _ => ⟨true, 7, 3⟩
  | .parse _ => ⟨true, 7, 4⟩
  | .receive _ => ⟨true, 7, 5⟩
  | .read => ⟨true, 7, 6⟩
  | .reserved111 _ => ⟨true, 7, 7⟩
  | .typeLinkStatistics _ => ⟨false, 255, 20⟩
  | .typeBatterySensor _ => ⟨false, 255, 8⟩
  | .typeGps _ => ⟨false, 255, 2⟩
  | .typeRcChannelsPacked _ => ⟨false, 255, 22⟩
  | .typeOther _ _ => ⟨false, 0, 0⟩

/-- A port word has a row's format and, under the row's mask, its bits. -/
def matchesRow (row : TableRow) : PortWord → Prop
  | .operation code _ => row.isOperation = true ∧ code.toNat &&& row.mask = row.value
  | .packetType type _ => row.isOperation = false ∧ type.toNat &&& row.mask = row.value

namespace TableCode

/-- The encoding of the instruction matches its row. -/
def Statement (i : Instr) : Prop := matchesRow (rowOf i) (encode i)

theorem reset : Statement .reset :=
  ⟨rfl, by simp [rowOf]⟩

theorem checksum (bytes : List Byte) : Statement (.checksum bytes) :=
  ⟨rfl, by simp [rowOf]⟩

theorem encode (channels : List Int) : Statement (.encode channels) :=
  ⟨rfl, by simp [rowOf]⟩

theorem feed (chunk : List Byte) : Statement (.feed chunk) :=
  ⟨rfl, by simp [rowOf]⟩

theorem parse (frame : List Byte) : Statement (.parse frame) :=
  ⟨rfl, by simp [rowOf]⟩

theorem receive (chunk : List Byte) : Statement (.receive chunk) :=
  ⟨rfl, by simp [rowOf]⟩

theorem read : Statement .read :=
  ⟨rfl, by simp [rowOf]⟩

theorem reserved111 (operand : List Int) : Statement (.reserved111 operand) :=
  ⟨rfl, by simp [rowOf]⟩

theorem typeLinkStatistics (payload : List Byte) : Statement (.typeLinkStatistics payload) :=
  ⟨rfl, by simp [rowOf]⟩

theorem typeBatterySensor (payload : List Byte) : Statement (.typeBatterySensor payload) :=
  ⟨rfl, by simp [rowOf]⟩

theorem typeGps (payload : List Byte) : Statement (.typeGps payload) :=
  ⟨rfl, by simp [rowOf]⟩

theorem typeRcChannelsPacked (payload : List Byte) : Statement (.typeRcChannelsPacked payload) :=
  ⟨rfl, by simp [rowOf]⟩

theorem typeOther (type : Byte) (payload : List Byte) : Statement (.typeOther type payload) :=
  ⟨rfl, Nat.and_zero _⟩

end TableCode

end Sys2Proof.Laws
end

