-- ==== Sys2Proof/Laws/Step.lean ====
section
/-! SUPPORT. What an instruction can change, and what a step can do, each said once. -/

namespace Sys2Proof.Machine

/-- Whatever the instruction, a next state differs from the state before in the buffer, the snapshot and the result port
alone, and a result is given. -/
theorem exec_next {i : Instr} {s t : State} (h : exec i s = .next t) :
    ∃ buf snap r, t = ((s.withBuf buf).withSnap snap).withResult r := by
  cases i with
  | reset => exact ⟨_, _, _, (Host.Outcome.next.inj h).symm⟩
  | checksum bytes => exact ⟨s.buf, s.snap, _, (Host.Outcome.next.inj h).symm⟩
  | encode channels =>
    rcases execEncode_next h with rfl | rfl
    · exact ⟨s.buf, s.snap, _, rfl⟩
    · exact ⟨s.buf, s.snap, _, rfl⟩
  | feed chunk =>
    obtain ⟨-, rfl⟩ := execFeed_next h
    exact ⟨_, s.snap, _, rfl⟩
  | parse frame =>
    obtain ⟨-, rfl⟩ := execParse_next h
    exact ⟨s.buf, _, _, rfl⟩
  | receive chunk =>
    obtain ⟨-, snap, -, rfl⟩ := execReceive_next h
    exact ⟨_, snap, _, rfl⟩
  | read => exact ⟨s.buf, s.snap, _, (Host.Outcome.next.inj h).symm⟩
  | reserved111 operand => cases h
  | typeLinkStatistics payload =>
    obtain ⟨-, rfl⟩ := parsePayload_next h
    exact ⟨s.buf, _, _, rfl⟩
  | typeBatterySensor payload =>
    obtain ⟨-, rfl⟩ := parsePayload_next h
    exact ⟨s.buf, _, _, rfl⟩
  | typeGps payload =>
    obtain ⟨-, rfl⟩ := parsePayload_next h
    exact ⟨s.buf, _, _, rfl⟩
  | typeRcChannelsPacked payload =>
    obtain ⟨-, rfl⟩ := parsePayload_next h
    exact ⟨s.buf, _, _, rfl⟩
  | typeOther type payload =>
    obtain ⟨-, rfl⟩ := parsePayload_next h
    exact ⟨s.buf, _, _, rfl⟩

/-- A step that answers next waited, let a turn pass, or ran the decoded port word of the scheduled agent and delivered
its result. -/
theorem step_next {s t : State} (h : step s = .next t) :
    (s.schedule = [] ∧ t = s) ∨
    (∃ a rest, s.schedule = a :: rest ∧ (s.port a).pending = [] ∧ t = s.withSchedule rest) ∨
    (∃ a rest w ws i u, s.schedule = a :: rest ∧ (s.port a).pending = w :: ws ∧ decode w = .ok i ∧
      exec i s = .next u ∧ t = u.deliver a) := by
  unfold step nextTransaction at h
  cases hs : s.schedule with
  | nil =>
    rw [hs] at h
    exact .inl ⟨rfl, (Host.Outcome.next.inj h).symm⟩
  | cons a rest =>
    cases hp : (s.port a).pending with
    | nil =>
      simp only [hs, hp] at h
      exact .inr (.inl ⟨a, rest, rfl, hp, (Host.Outcome.next.inj h).symm⟩)
    | cons w ws =>
      simp only [hs, hp] at h
      cases hd : decode w with
      | error e => rw [hd] at h; cases h
      | ok i =>
        simp only [hd] at h
        cases he : exec i s with
        | next u =>
          simp only [he] at h
          exact .inr (.inr ⟨a, rest, w, ws, i, u, rfl, hp, hd, he, (Host.Outcome.next.inj h).symm⟩)
        | fault r => nomatch r
        | refused r => simp only [he] at h; cases h

end Sys2Proof.Machine
end

