-- ==== Sys2Proof/Tests/Slice0.lean ====
section
/-! SUPPORT. Tests: the smoke test of WellFormed, decoding, one or two steps of each instruction, and a witness for the
hypotheses of every statement that has any. Expected values are those of spec/95_test_vectors.md, named in each comment,
or are written out from the encodings of spec/30_encoding.md. -/

namespace Sys2Proof.Tests

open Sys2Proof.Machine

/-! ### Helpers -/

/-- A byte sequence written as numbers. -/
def bytes (values : List Nat) : List Byte := values.map (BitVec.ofNat 8)

/-- The next state of an outcome, if it is one. -/
def nextOf : Ending → Option State
  | .next t => some t
  | .fault _ | .refused _ => none

/-- The refusal of an outcome, if it is one. -/
def refusalOf : Ending → Option Refusal
  | .refused r => some r
  | .next _ | .fault _ => none

/-- The result an instruction gives at a state, if it completes. -/
def resultOf (i : Instr) (s : State) : Option Result := (nextOf (exec i s)).bind (·.result)

/-- The buffer an instruction leaves. -/
def bufOf (i : Instr) (s : State) : Option (List Byte) := (nextOf (exec i s)).map (·.buf)

/-- A snapshot field after an instruction, if it completes and the field is present. -/
def fieldOf (i : Instr) (s : State) (f : Field) : Option Int := (nextOf (exec i s)).bind (·.snap.read f)

theorem next_of_isSome {o : Ending} (h : (nextOf o).isSome = true) : ∃ t, o = .next t := by
  cases o with
  | next t => exact ⟨t, rfl⟩
  | fault r => cases h
  | refused r => cases h

theorem next_of_eq {o : Ending} {t : State} (h : nextOf o = some t) : o = .next t := by
  cases o with
  | next u => exact congrArg _ (Option.some.inj h)
  | fault r => cases h
  | refused r => cases h

theorem refused_of_eq {o : Ending} {r : Refusal} (h : refusalOf o = some r) : o = .refused r := by
  cases o with
  | next u => cases h
  | fault r => cases h
  | refused r' => exact congrArg _ (Option.some.inj h)

/-- The state after an instruction that completes. -/
def after (i : Instr) (s : State) : State := (nextOf (exec i s)).getD s

theorem exec_after {i : Instr} {s : State} (h : (nextOf (exec i s)).isSome = true) : exec i s = .next (after i s) := by
  obtain ⟨t, ht⟩ := next_of_isSome h
  simp [after, ht, nextOf]

/-- Reset, with this buffer. -/
def withBuffer (buf : List Byte) : State := { State.reset with buf := buf }

/-- Reset, with this buffer and a finite capacity. -/
def withCapacity (cap : Nat) (buf : List Byte) : State := { State.reset with buf := buf, bufCap := some cap }

/-- Reset, with an agent about to issue one port word. -/
def issuing (a : Agent) (w : PortWord) : State := State.reset.issueFirst a w

/-- Frames Fb, Fb2, Fl, Fl2, Fg, Fg2, Ft, Fu of spec/95_test_vectors.md. -/
def frameFb : Frame := bytes [0xC8, 0x0A, 0x08, 0xE8, 0x03, 0x64, 0x00, 0x10, 0x27, 0x32, 0x00, 0x27]
def frameFb2 : Frame := bytes [0xC8, 0x09, 0x08, 0xB0, 0x04, 0xC8, 0x00, 0xE8, 0x03, 0x19, 0x98]
def frameFb6 : Frame := bytes [0xC8, 0x08, 0x08, 0xE8, 0x03, 0x64, 0x00, 0x10, 0x27, 0x37]
def frameFl : Frame := bytes [0xC8, 0x0C, 0x14, 1, 2, 3, 4, 5, 6, 7, 8, 9, 0x0A, 0x68]
def frameFl9 : Frame := bytes [0xC8, 0x0B, 0x14, 1, 2, 3, 4, 5, 6, 7, 8, 9, 0x9B]
def frameFg : Frame :=
  bytes [0xC8, 0x11, 0x02, 0xDE, 0xF6, 0xCE, 0x1A, 0xF0, 0xE3, 0x68, 0xC8, 0x32, 0x00, 0x28, 0x23, 0x38, 0xFF, 0xFF, 0xEF]
def frameFg14 : Frame :=
  bytes [0xC8, 0x10, 0x02, 0xDE, 0xF6, 0xCE, 0x1A, 0xF0, 0xE3, 0x68, 0xC8, 0x32, 0x00, 0x28, 0x23, 0x38, 0xFF, 0x7F]
def frameFt : Frame := bytes [0xC8, 0x02, 0x16, 0xD3]
def frameFu : Frame := bytes [0xC8, 0x07, 0x21, 0x41, 0x43, 0x52, 0x4F, 0x00, 0x80]
def frameFmax : Frame := bytes [0xC8, 0x40, 0x7F] ++ List.replicate 62 0xAA ++ [0x16]

/-- Frame Z of spec/95_test_vectors.md, ENCODE of 16 zeros. -/
def frameZ : Frame := bytes [0xC8, 0x18, 0x16] ++ List.replicate 22 0x00 ++ [0xEF]

/-! ### WellFormed refuses -/

/-- A payload of 63 bytes, which no frame carries (R64), in each packet-type row. -/
theorem test_wellFormed_refuses_long_payload :
    WellFormed (.typeLinkStatistics (List.replicate 63 0)) = false ∧
    WellFormed (.typeBatterySensor (List.replicate 63 0)) = false ∧
    WellFormed (.typeGps (List.replicate 63 0)) = false ∧
    WellFormed (.typeRcChannelsPacked (List.replicate 63 0)) = false ∧
    WellFormed (.typeOther 0x21 (List.replicate 63 0)) = false := by decide

/-- TYPE_OTHER with each of the four type bytes that have a row of their own (R66). -/
theorem test_wellFormed_refuses_named_type_as_other :
    WellFormed (.typeOther 0x14 []) = false ∧ WellFormed (.typeOther 0x08 []) = false ∧
    WellFormed (.typeOther 0x02 []) = false ∧ WellFormed (.typeOther 0x16 []) = false := by decide

theorem test_wellFormed_accepts_longest_payload :
    WellFormed (.typeGps (List.replicate 62 0)) = true ∧ WellFormed (.typeOther 0x21 []) = true := by decide

/-! ### Decoding -/

/-- The command codes of R75. -/
theorem test_decode_operations :
    decode (.operation 0b000 []) = .ok .reset ∧
    decode (.operation 0b001 [0x31, 0x32]) = .ok (.checksum (bytes [0x31, 0x32])) ∧
    decode (.operation 0b010 [4095, -1, 0]) = .ok (.encode [4095, -1, 0]) ∧
    decode (.operation 0b011 [0xC8, 0xFF]) = .ok (.feed (bytes [0xC8, 0xFF])) ∧
    decode (.operation 0b100 [0xC8, 0x02, 0x16, 0xD3]) = .ok (.parse frameFt) ∧
    decode (.operation 0b101 [0x00]) = .ok (.receive (bytes [0x00])) ∧
    decode (.operation 0b110 []) = .ok .read ∧
    decode (.operation 0b111 [5]) = .ok (.reserved111 [5]) := by
  refine ⟨rfl, rfl, rfl, rfl, rfl, rfl, rfl, rfl⟩

/-- The type bytes of R66. -/
theorem test_decode_packet_types :
    decode (.packetType 0b00010100 (bytes [1, 2])) = .ok (.typeLinkStatistics (bytes [1, 2])) ∧
    decode (.packetType 0b00001000 (bytes [1, 2])) = .ok (.typeBatterySensor (bytes [1, 2])) ∧
    decode (.packetType 0b00000010 (bytes [1, 2])) = .ok (.typeGps (bytes [1, 2])) ∧
    decode (.packetType 0b00010110 (bytes [1, 2])) = .ok (.typeRcChannelsPacked (bytes [1, 2])) ∧
    decode (.packetType 0b00100001 (bytes [1, 2])) = .ok (.typeOther 0x21 (bytes [1, 2])) := by
  refine ⟨rfl, rfl, rfl, rfl, rfl⟩

/-- Rejections by name: an operand where there is none, 256 and -1 as bytes, 63 payload bytes. -/
theorem test_decode_rejects :
    decode (.operation 0b110 [0]) = .error .operandNotEmpty ∧
    decode (.operation 0b011 [255, 256]) = .error .operandNotByte ∧
    decode (.operation 0b001 [-1]) = .error .operandNotByte ∧
    decode (.packetType 0x02 (List.replicate 63 0)) = .error .payloadTooLong := by
  refine ⟨rfl, rfl, rfl, rfl⟩

theorem test_decodeTableWord :
    (List.range 8).map (decodeTableWord 8) =
      [some .reset, some (.checksum []), some (.encode []), some (.feed []), some (.parse []), some (.receive []),
        some .read, some (.reserved111 [])] ∧
    decodeTableWord 8 20 = some (.typeLinkStatistics []) ∧ decodeTableWord 8 22 = some (.typeRcChannelsPacked []) := by
  decide +kernel

/-! ### The checksum generator -/

/-- V-L2-CRC-1: "123456789". -/
theorem test_checksum_check_value :
    resultOf (.checksum (bytes [0x31, 0x32, 0x33, 0x34, 0x35, 0x36, 0x37, 0x38, 0x39])) State.reset =
      some (.byte 0xBC) := by decide +kernel

/-- V-L2-CRC-1: 16, 22 times 00, EF has zero residue. -/
theorem test_checksum_zero_residue :
    resultOf (.checksum (bytes [0x16] ++ List.replicate 22 0x00 ++ [0xEF])) State.reset = some (.byte 0x00) := by
  decide +kernel

/-- V-L2-CRC-T, rows 0, 7, 8 and F. -/
theorem test_crc8Step_table_rows :
    [0x00, 0x70, 0x80, 0xF0].map (fun row =>
      (List.range 16).map fun column => (crc8Step 0x00 (BitVec.ofNat 8 (row + column))).toNat) =
    [[0x00, 0xD5, 0x7F, 0xAA, 0xFE, 0x2B, 0x81, 0x54, 0x29, 0xFC, 0x56, 0x83, 0xD7, 0x02, 0xA8, 0x7D],
     [0x6B, 0xBE, 0x14, 0xC1, 0x95, 0x40, 0xEA, 0x3F, 0x42, 0x97, 0x3D, 0xE8, 0xBC, 0x69, 0xC3, 0x16],
     [0xEF, 0x3A, 0x90, 0x45, 0x11, 0xC4, 0x6E, 0xBB, 0xC6, 0x13, 0xB9, 0x6C, 0x38, 0xED, 0x47, 0x92],
     [0x84, 0x51, 0xFB, 0x2E, 0x7A, 0xAF, 0x05, 0xD0, 0xAD, 0x78, 0xD2, 0x07, 0x53, 0x86, 0x2C, 0xF9]] := by
  decide +kernel

/-! ### The frame encoder -/

/-- V-L2-ENC-15 and V-L2-ENC-6: 4095 is truncated to 2047 and does not reach channel 1. -/
theorem test_encode_truncates :
    resultOf (.encode (4095 :: List.replicate 15 0)) State.reset =
      some (.frame (bytes [0xC8, 0x18, 0x16, 0xFF, 0x07] ++ List.replicate 20 0x00 ++ [0x03])) := by decide +kernel

/-- V-L2-ENC-16: 15 channels, with nothing changed but the result. -/
theorem test_encode_count_error :
    nextOf (exec (.encode (List.replicate 15 1024)) (withBuffer frameFt)) =
      some ((withBuffer frameFt).withResult (.inputLengthError 15)) := by decide +kernel

/-- V-L2-ENC-5, channels 0 to 15, and V-L2-ENC-17, the inverse. -/
theorem test_pack_zero_to_fifteen :
    pack ((List.range 16).map (BitVec.ofNat 11)) =
      bytes [0x00, 0x08, 0x80, 0x00, 0x06, 0x40, 0x80, 0x02, 0x18, 0xE0, 0x00,
        0x08, 0x48, 0x80, 0x02, 0x16, 0xC0, 0x80, 0x06, 0x38, 0xE0, 0x01] ∧
    unpack (bytes [0x00, 0x08] ++ List.replicate 20 0x00) = [0, 1] ++ List.replicate 14 0 := by decide +kernel

/-! ### The frame decoder -/

/-- V-L2-DEC-3: two frames with five garbage bytes between. -/
theorem test_feed_two_frames :
    nextOf (exec (.feed (frameFb ++ bytes [1, 2, 3, 4, 5] ++ frameFl)) State.reset) =
      some (State.reset.withResult (.frames [frameFb, frameFl])) := by decide +kernel

/-- V-L2-DEC-20: a bad CRC drops only the sync byte, and a false sync inside the payload then waits. -/
theorem test_feed_bad_crc_then_stall :
    nextOf (exec (.feed (frameFg.set 18 0x00)) State.reset) =
      some ((withBuffer (bytes [0xC8, 0x32, 0x00, 0x28, 0x23, 0x38, 0xFF, 0xFF, 0x00])).withResult (.frames [])) := by
  decide +kernel

/-- V-L2-DEC-8, 6, 15, 9 and 16: the length tests at 0, 65 and 200, the smallest and the largest frame. -/
theorem test_scanOutcome_lengths :
    scanOutcome (bytes [0xC8, 0x00, 0x00, 0x00]) = .undersize ∧
    scanOutcome (bytes [0xC8, 0x41, 0x00, 0x00]) = .oversize ∧
    scanOutcome (0xC8 :: frameFl) = .oversize ∧
    scanOutcome frameFt = .emit ∧ scanOutcome frameFmax = .emit := by decide +kernel

/-! ### The telemetry parser -/

/-- V-L2-PAR-5: signed 32-bit and 24-bit fields. -/
theorem test_parse_gps :
    fieldOf (.parse frameFg) State.reset .gps_latitude = some 449771230 ∧
    fieldOf (.parse frameFg) State.reset .gps_longitude = some (-932650000) ∧
    fieldOf (.parse frameFg) State.reset .gps_heading = some 9000 ∧
    fieldOf (.parse frameFg) State.reset .gps_altitude = some (-200) ∧
    fieldOf (.parse frameFg) State.reset .bat_voltage = none := by decide +kernel

/-- V-L2-PAR-14: the battery frame with CRC 00. -/
theorem test_parse_refuses_invalid :
    refusalOf (exec (.parse (frameFb.set 11 0x00)) State.reset) = some .invalidFrame := by decide +kernel

/-- V-L2-PAR-4, payload of Fl2: the SNRs are signed, the other fields are not. -/
theorem test_typeLinkStatistics_signs :
    let i := Instr.typeLinkStatistics (bytes [0x64, 0x5A, 0x64, 0xF6, 0x01, 0x02, 0x03, 0x50, 0x62, 0x80])
    fieldOf i State.reset .ls_uplink_snr = some (-10) ∧ fieldOf i State.reset .ls_downlink_snr = some (-128) ∧
    fieldOf i State.reset .ls_uplink_rssi_2 = some 90 ∧ fieldOf i State.reset .ls_downlink_rssi = some 80 := by
  decide +kernel

/-- V-L2-PAR-9: 9 bytes are too short. -/
theorem test_typeLinkStatistics_short :
    nextOf (exec (.typeLinkStatistics (bytes [1, 2, 3, 4, 5, 6, 7, 8, 9])) State.reset) =
      some (State.reset.withResult .done) := by decide +kernel

/-- V-L1-2: the source's 8-byte payload. -/
theorem test_typeBatterySensor_scenario :
    let i := Instr.typeBatterySensor (bytes [0xE8, 0x03, 0x64, 0x00, 0x10, 0x27, 0x32, 0x00])
    fieldOf i State.reset .bat_voltage = some 1000 ∧ fieldOf i State.reset .bat_current = some 100 ∧
    fieldOf i State.reset .bat_capacity = some 10000 ∧ fieldOf i State.reset .bat_remaining = some 50 := by
  decide +kernel

/-- V-L2-PAR-7: the least altitude, and the greatest longitude. -/
theorem test_typeGps_extremes :
    let i := Instr.typeGps (bytes [0xFF, 0xFF, 0xFF, 0xFF, 0xFF, 0xFF, 0xFF, 0x7F, 0xFF, 0xFF, 0x00, 0x00, 0x00, 0x00, 0x80])
    fieldOf i State.reset .gps_latitude = some (-1) ∧ fieldOf i State.reset .gps_longitude = some 2147483647 ∧
    fieldOf i State.reset .gps_ground_speed = some 65535 ∧ fieldOf i State.reset .gps_altitude = some (-8388608) := by
  decide +kernel

/-- V-L2-PAR-11 and 12: types 0x16 and 0x21 are ignored. -/
theorem test_other_types_ignored :
    nextOf (exec (.typeRcChannelsPacked []) State.reset) = some (State.reset.withResult .done) ∧
    nextOf (exec (.typeOther 0x21 (bytes [0x41, 0x43])) State.reset) = some (State.reset.withResult .done) := by
  decide +kernel

/-! ### RECEIVE, READ, RESET and the reserved code -/

/-- V-L2-RCV-1: of two battery frames the later one's values are left. -/
theorem test_receive_arrival_order :
    resultOf (.receive (frameFb ++ frameFb2)) State.reset = some (.frames [frameFb, frameFb2]) ∧
    fieldOf (.receive (frameFb ++ frameFb2)) State.reset .bat_voltage = some 1200 := by decide +kernel

/-- P3, third read: the stalled frame is emitted and parsed once the false candidate is decided. -/
theorem test_receive_after_stall :
    let s := withBuffer (bytes [0xC8, 0x0F] ++ frameFl)
    bufOf (.receive [0x00]) s = some [0x00] ∧ fieldOf (.receive [0x00]) s .ls_downlink_snr = some 10 := by
  decide +kernel

/-- V-L2-RCV-3: after RESET every field is absent. -/
theorem test_read_reset :
    resultOf .read State.reset = some (.snapshot Snapshot.absent) ∧
    Snapshot.absent.pairs.all (fun p => p.2 == none) = true ∧ Snapshot.absent.pairs.length = 19 := by decide +kernel

/-- V-L2-RST-1: RESET drops the partial frame. -/
theorem test_reset_drops_partial_frame :
    bufOf .reset (withBuffer (bytes [0xC8, 0x18, 0x16])) = some [] := by decide +kernel

theorem test_reserved_refused :
    refusalOf (exec (.reserved111 []) State.reset) = some .reservedCommand := by decide +kernel

/-! ### The step -/

/-- From reset, a table word runs next: READ, and its result reaches the host. -/
theorem test_step_withFetchWord :
    (nextOf (step (State.reset.withFetchWord 8 0b110))).map (·.host.results) =
      some [.snapshot Snapshot.absent] := by decide +kernel

/-! ### Witnesses: the hypotheses of each statement are met -/

theorem witness_DecodeOfEncodeIsInstruction :
    WellFormed (.typeOther 0x00 (List.replicate 62 0xFF)) = true ∧ WellFormed (.encode [-1, 2048]) = true := by decide

theorem witness_EncodeOfDecodeIsPortWord : decode (.packetType 0x16 []) = .ok (.typeRcChannelsPacked []) := rfl

/-- RECEIVE issued by the reader path runs; the reserved code is refused. -/
theorem witness_StepRunsDecodedInstruction :
    (issuing .reader (.operation 0b101 [])).schedule = [.reader] ∧
    ((issuing .reader (.operation 0b101 [])).port .reader).pending = [.operation 0b101 []] ∧
    decode (.operation 0b101 []) = .ok (.receive []) ∧
    (∃ t, exec (.receive []) (issuing .reader (.operation 0b101 [])) = .next t) ∧
    decode (.operation 0b111 []) = .ok (.reserved111 []) ∧
    exec (.reserved111 []) (issuing .reader (.operation 0b111 [])) = .refused .reservedCommand :=
  ⟨rfl, rfl, rfl, next_of_isSome (by decide +kernel), rfl, rfl⟩

theorem witness_StepWithoutTransaction :
    State.reset.schedule = [] ∧
    (State.reset.withSchedule [.writer]).schedule = [.writer] ∧
    ((State.reset.withSchedule [.writer]).port .writer).pending = [] ∧
    ((issuing .host (.operation 0b110 [0])).port .host).pending = [.operation 0b110 [0]] ∧
    decode (.operation 0b110 [0]) = .error .operandNotEmpty := ⟨rfl, rfl, rfl, rfl, rfl⟩

theorem witness_FetchWordRunsNext :
    decodeTableWord 8 0b011 = some (.feed []) ∧
    ∃ t, exec (.feed []) (State.reset.withFetchWord 8 0b011) = .next t :=
  ⟨by decide +kernel, next_of_isSome (by decide +kernel)⟩

/-- The writer path and the host each about to issue one port word, which completes; and which is refused. -/
theorem witness_AnyAgentMayIssueAnyOperation :
    nextTransaction (issuing .writer (.operation 0b000 [])) = .issue .writer (.operation 0b000 []) ∧
    nextTransaction (issuing .host (.operation 0b000 [])) = .issue .host (.operation 0b000 []) ∧
    (∃ t, step (issuing .writer (.operation 0b000 [])) = .next t) ∧
    nextTransaction (issuing .writer (.operation 0b111 [])) = .issue .writer (.operation 0b111 []) ∧
    nextTransaction (issuing .host (.operation 0b111 [])) = .issue .host (.operation 0b111 []) ∧
    step (issuing .writer (.operation 0b111 [])) = .refused .reservedCommand :=
  ⟨rfl, rfl, next_of_isSome (by decide +kernel), rfl, rfl, refused_of_eq (by decide +kernel)⟩

theorem witness_EachAgentsIssueOrderIsKept :
    ∃ t, runSteps 1 (issuing .reader (.operation 0b011 [])) = .next t := next_of_isSome (by decide +kernel)

/-- The writer path issues CHECKSUM in two machines, in one of them after the host's RESET. -/
theorem witness_WriterResultsDoNotDependOnInterleaving :
    let s1 := issuing .writer (.operation 0b001 [])
    let s2 := (issuing .writer (.operation 0b001 [])).issueFirst .host (.operation 0b000 [])
    s1.writer = s2.writer ∧ IssuesOnlyWriterOperations s1.writer ∧
    ∃ t1 t2, runSteps 1 s1 = .next t1 ∧ runSteps 2 s2 = .next t2 ∧
      t1.writer.pending.length = t2.writer.pending.length := by
  refine ⟨rfl, ?_, _, _, next_of_eq rfl, next_of_eq rfl, rfl⟩
  intro w hw
  obtain rfl : w = .operation 0b001 [] := by simpa [issuing, State.issueFirst, State.reset, State.withPort,
    State.withSchedule, State.port, AgentPort.empty] using hw
  exact .inl ⟨[], rfl⟩

theorem witness_ResetStartsFreshStream :
    State.reset.bufCap = (withBuffer frameFt).bufCap ∧
    (∃ t, exec .reset State.reset = .next t ∧ Fits frameFl t) ∧ ∃ t, exec .reset (withBuffer frameFt) = .next t :=
  ⟨rfl, ⟨_, rfl, fun _ h => nomatch h⟩, _, rfl⟩

theorem witness_ChecksumIsLinear : (bytes [0x01, 0x80]).length = (bytes [0x80, 0x01]).length := rfl

/-- The first bit of the type byte, and the last bit of the CRC byte. -/
theorem witness_SingleBitErrorIsRejected :
    FrameValid frameFt ∧ 2 ≤ 3 ∧ 3 < frameFt.length ∧ 2 < frameFt.length ∧ 0 < 8 ∧ 7 < 8 := by decide +kernel

theorem witness_EncodeReturnsFrame :
    (List.replicate 16 (1024 : Int)).length = 16 ∧ (List.replicate 17 (1024 : Int)).length ≠ 16 ∧
    (List.replicate 15 (1024 : Int)).length ≠ 16 := by decide

theorem witness_EncodeWrongCountIsInputLengthError : ([] : List Int).length ≠ 16 := by decide

theorem witness_PackPlacesEveryBit : (List.replicate 16 (2047 : Channel)).length = 16 ∧ 15 < 16 ∧ 10 < 11 := by decide

theorem witness_PackIsClosedForm : ((List.range 16).map (BitVec.ofNat 11)).length = 16 := by decide

theorem witness_PackAndUnpackAreInverse :
    (List.replicate 16 (0 : Channel)).length = 16 ∧ (List.replicate 22 (0xFF : Byte)).length = 22 ∧
    (List.replicate 16 (-1 : Int)).length = 16 := by decide

/-- A chunk that fills the capacity exactly; and one SCAN_STEP of each kind is possible. -/
theorem witness_FeedRunsScanToHalt :
    Fits frameFt (withCapacity 4 []) ∧ ScanMove frameFt [frameFt] [] ∧ ScanMove (bytes [0, 1, 2, 3]) [] (bytes [1, 2, 3]) := by
  refine ⟨fun cap h => ?_, ?_, ?_⟩
  · obtain rfl : 4 = cap := Option.some.inj h
    decide
  · exact ScanMove.emit (type := 0x16) (payload := []) (rest := []) (by decide) (crc := 0xD3) (by decide +kernel)
  · exact ScanMove.nonsync (b := bytes [0, 1, 2, 3]) (by decide) (by decide)

theorem witness_FeedLeavesQuiescentBuffer :
    (∃ t, exec (.feed frameFl) State.reset = .next t) ∧ ∃ t, exec .reset State.reset = .next t :=
  ⟨next_of_isSome (by decide +kernel), _, rfl⟩

theorem witness_EmittedFramesAreValid :
    ∃ t, exec (.receive frameFl) State.reset = .next t ∧ t.result = some (.frames [frameFl]) := by
  obtain ⟨t, ht⟩ := next_of_isSome (o := exec (.receive frameFl) State.reset) (by decide +kernel)
  refine ⟨t, ht, ?_⟩
  have h : resultOf (.receive frameFl) State.reset = some (.frames [frameFl]) := by decide +kernel
  simpa [resultOf, ht, nextOf] using h

theorem witness_FeedDoesNotDependOnChunking :
    Fits [frameFl.take 5, frameFl.drop 5].flatten (withCapacity 14 []) ∧ [frameFl.take 5, frameFl.drop 5] ≠ [] := by
  refine ⟨fun cap h => ?_, by decide⟩
  obtain rfl : 14 = cap := Option.some.inj h
  decide

theorem witness_ReceiveDoesNotDependOnChunking :
    Fits [frameFb, []].flatten (withBuffer frameFt) ∧ [frameFb, []] ≠ [] := ⟨fun _ h => (nomatch h), by decide⟩

theorem witness_DecoderReturnsEncodedFrame :
    (List.replicate 16 (0 : Int)).length = 16 ∧ (withCapacity 26 []).buf = [] ∧ Fits frameZ (withCapacity 26 []) ∧
    ∃ t, exec (.encode (List.replicate 16 0)) (withCapacity 26 []) = .next t ∧ t.result = some (.frame frameZ) := by
  refine ⟨rfl, rfl, fun _ h => Nat.le_of_eq (Option.some.inj h), _, exec_after (by decide +kernel), ?_⟩
  decide +kernel

theorem witness_GarbageWithoutSyncIsDropped :
    FrameValid frameFl ∧ (0xC8 : Byte) ∉ bytes [0x00, 0x11, 0x22] ∧ State.reset.buf = [] ∧
    Fits (bytes [0x00, 0x11, 0x22] ++ frameFl) State.reset :=
  ⟨by decide +kernel, by decide +kernel, rfl, fun _ h => nomatch h⟩

/-- V-L2-DEC-7: a false sync with a plausible length byte in the garbage, whose candidate extends into the frame and fails
its CRC; 66 bytes from the frame's first byte are there. -/
theorem witness_ResynchronizationDeliversFrame :
    FrameValid frameFb ∧
    (∀ j < (bytes [0xC8, 0x3F]).length,
      (bytes [0xC8, 0x3F]).length <
        j + (candidateAt (bytes [0xC8, 0x3F] ++ frameFb ++ List.replicate 54 0x00) j).length →
      ¬ FrameValid (candidateAt (bytes [0xC8, 0x3F] ++ frameFb ++ List.replicate 54 0x00) j)) ∧
    66 ≤ frameFb.length + (List.replicate 54 (0x00 : Byte)).length ∧ State.reset.buf = [] ∧
    Fits (bytes [0xC8, 0x3F] ++ frameFb ++ List.replicate 54 0x00) State.reset :=
  ⟨by decide +kernel, by decide +kernel, by decide, rfl, fun _ h => nomatch h⟩

/-- Three bytes; and the partial candidate of V-L2-DEC-13. -/
theorem witness_HaltKeepsEveryByte :
    Fits (bytes [0xC8, 0x02, 0x16]) State.reset ∧ Fits (bytes [0xC8, 0x0F] ++ frameFl) State.reset ∧
    (State.reset.buf ++ bytes [0xC8, 0x02, 0x16]).length < 4 ∧
    AwaitsFrame (State.reset.buf ++ (bytes [0xC8, 0x0F] ++ frameFl)) :=
  ⟨fun _ h => (nomatch h), fun _ h => (nomatch h), by decide, by decide +kernel⟩

/-- A capacity of 4 that 5 bytes exceed and 4 bytes fill; and no capacity. -/
theorem witness_OverflowingFeedIsRefused :
    (withCapacity 4 (bytes [1])).bufCap = some 4 ∧ 4 < (withCapacity 4 (bytes [1])).buf.length + frameFt.length ∧
    (withCapacity 4 []).bufCap = some 4 ∧ (withCapacity 4 []).buf.length + frameFt.length ≤ 4 ∧
    State.reset.bufCap = none := by decide

theorem witness_BufferChangesOnlyByFeedAndReset :
    (∃ t, exec (.feed frameFt) State.reset = .next t) ∧ (∃ t, exec (.receive frameFt) State.reset = .next t) ∧
    (∃ t, exec .reset State.reset = .next t) ∧ ∃ t, exec .read State.reset = .next t :=
  ⟨next_of_isSome (by decide +kernel), next_of_isSome (by decide +kernel), ⟨_, rfl⟩, _, rfl⟩

/-- One buffer for each clause: no sync byte, length bytes 65 and 1, a wrong and a right CRC byte. -/
theorem witness_FeedTakesOneScanStep :
    Fits (bytes [0, 1, 2, 3]) (withCapacity 4 []) ∧
    (4 ≤ (bytes [0, 1, 2, 3]).length ∧ byteAt (bytes [0, 1, 2, 3]) 0 ≠ 0xC8) ∧
    (byteAt (bytes [0xC8, 65, 2, 3]) 0 = 0xC8 ∧ 64 < (byteAt (bytes [0xC8, 65, 2, 3]) 1).toNat) ∧
    (byteAt (bytes [0xC8, 1, 2, 3]) 0 = 0xC8 ∧ (byteAt (bytes [0xC8, 1, 2, 3]) 1).toNat < 2) ∧
    (bytes [0xC8, 0x02, 0x16, 0x00] = [0xC8, BitVec.ofNat 8 (0 + 2), 0x16] ++ [] ++ [0x00] ++ [] ∧
      (0x00 : Byte) ≠ checksum [0x16]) ∧
    (frameFt = [0xC8, BitVec.ofNat 8 (0 + 2), 0x16] ++ [] ++ [0xD3] ++ [] ∧ (0xD3 : Byte) = checksum [0x16]) :=
  ⟨fun _ h => Nat.le_of_eq (Option.some.inj h), by decide +kernel⟩

theorem witness_ParseRefusesExactlyInvalidFrames : FrameValid frameFmax ∧ ¬ FrameValid (frameFb.set 11 0x00) := by
  decide +kernel

theorem witness_ParseCommitsLinkStatistics :
    FrameValid frameFl ∧ byteAt frameFl 2 = 0x14 ∧ 10 ≤ (byteAt frameFl 1).toNat - 2 := by decide +kernel

theorem witness_ParseCommitsBattery :
    FrameValid frameFb2 ∧ byteAt frameFb2 2 = 0x08 ∧ 7 ≤ (byteAt frameFb2 1).toNat - 2 := by decide +kernel

theorem witness_ParseCommitsGps :
    FrameValid frameFg ∧ byteAt frameFg 2 = 0x02 ∧ 15 ≤ (byteAt frameFg 1).toNat - 2 := by decide +kernel

theorem witness_ParseIgnoresOtherTypes :
    FrameValid frameFu ∧ byteAt frameFu 2 ≠ 0x14 ∧ byteAt frameFu 2 ≠ 0x08 ∧ byteAt frameFu 2 ≠ 0x02 := by
  decide +kernel

/-- Payloads one byte short: 9, 6 and 14 bytes. -/
theorem witness_ParseIgnoresShortPayloads :
    (FrameValid frameFl9 ∧ byteAt frameFl9 2 = 0x14 ∧ (byteAt frameFl9 1).toNat - 2 < 10) ∧
    (FrameValid frameFb6 ∧ byteAt frameFb6 2 = 0x08 ∧ (byteAt frameFb6 1).toNat - 2 < 7) ∧
    (FrameValid frameFg14 ∧ byteAt frameFg14 2 = 0x02 ∧ (byteAt frameFg14 1).toNat - 2 < 15) := by decide +kernel

/-- The longest surplus for each type. -/
theorem witness_ParseIgnoresSurplusBytes :
    (List.replicate 10 (0 : Byte)).length = 10 ∧ 10 + (List.replicate 52 (0 : Byte)).length ≤ 62 ∧
    (List.replicate 7 (0 : Byte)).length = 7 ∧ 7 + (List.replicate 55 (0 : Byte)).length ≤ 62 ∧
    (List.replicate 15 (0 : Byte)).length = 15 ∧ 15 + (List.replicate 47 (0 : Byte)).length ≤ 62 := by decide

theorem witness_PacketTypeRowsAreParse : (List.replicate 62 (0 : Byte)).length ≤ 62 := by decide

/-- Lengths at each boundary: 9 and 10, 6 and 7, 14 and 15, 62 and 63; and a type byte of the last row. -/
theorem witness_PacketTypeRowsComplete :
    (List.replicate 9 (0 : Byte)).length < 10 ∧ 10 ≤ (List.replicate 10 (0 : Byte)).length ∧
    (List.replicate 6 (0 : Byte)).length < 7 ∧ 7 ≤ (List.replicate 7 (0 : Byte)).length ∧
    (List.replicate 14 (0 : Byte)).length < 15 ∧ 15 ≤ (List.replicate 15 (0 : Byte)).length ∧
    (List.replicate 62 (0 : Byte)).length ≤ 62 ∧ 62 < (List.replicate 63 (0 : Byte)).length ∧
    isOtherType 0x00 = true := by decide

/-- A field that PARSE changes, and one that RECEIVE of another type's frame keeps. -/
theorem witness_SnapshotFieldsChangeOnlyByTheirType :
    let t := after (.parse frameFb) State.reset
    exec (.parse frameFb) State.reset = .next t ∧ t.snap.read .bat_voltage ≠ State.reset.snap.read .bat_voltage ∧
    t.snap.read .bat_voltage ≠ none ∧ ∃ u, exec (.receive frameFl) t = .next u :=
  ⟨exec_after (by decide +kernel), by decide +kernel, by decide +kernel, next_of_isSome (by decide +kernel)⟩

/-- A chunk that fits; and one whose FEED is refused. -/
theorem witness_ReceiveIsFeedThenParse :
    Fits frameFl (withCapacity 14 []) ∧
    exec (.feed frameFl) (withCapacity 13 []) = .refused .bufferOverflow :=
  ⟨fun _ h => Nat.le_of_eq (Option.some.inj h), refused_of_eq (by decide +kernel)⟩

/-- Each refusal, and a completion. -/
theorem witness_RefusalsAreTheClosedList :
    WellFormed (.feed frameFl) = true ∧ exec (.feed frameFl) (withCapacity 13 []) = .refused .bufferOverflow ∧
    WellFormed (.parse []) = true ∧ exec (.parse []) State.reset = .refused .invalidFrame ∧
    WellFormed (.reserved111 []) = true ∧ exec (.reserved111 []) State.reset = .refused .reservedCommand ∧
    WellFormed .read = true ∧ ∃ t, exec .read State.reset = .next t :=
  ⟨rfl, refused_of_eq (by decide +kernel), rfl, refused_of_eq (by decide +kernel), rfl, rfl, rfl, _, rfl⟩

theorem witness_InstructionFrames :
    (∃ t, exec (.checksum frameFt) State.reset = .next t) ∧ (∃ t, exec (.encode []) State.reset = .next t) ∧
    (∃ t, exec .read State.reset = .next t) ∧ ∃ t, exec (.feed frameFt) State.reset = .next t :=
  ⟨⟨_, rfl⟩, ⟨_, rfl⟩, ⟨_, rfl⟩, next_of_isSome (by decide +kernel)⟩

/-- A state at the buffer's greatest length, with the snapshot of reset, and a step from it. -/
theorem witness_EveryStepKeepsInvariant :
    let s := (issuing .reader (.operation 0b011 [0x00])).withBuf (bytes [0xC8, 0x40] ++ List.replicate 63 0x00)
    s.Inv ∧ s.buf.length = 65 ∧ ∃ t, step s = .next t := by
  refine ⟨⟨by decide +kernel, fun cap h => (nomatch h), fun f v h => ?_⟩, by decide +kernel,
    next_of_isSome (by decide +kernel)⟩
  have habs : Snapshot.absent.read f = some v := h
  simp at habs

end Sys2Proof.Tests
end

section
/-! PROOF. The block's persistent state (spec/10_state.md): what changes the buffer (R22) and what changes a field of
the snapshot (R27). -/

namespace Sys2Proof.Machine

/-! ### The buffer (R22) -/

/-- The scan removes bytes from the front only (R139). -/
theorem scan_suffix (fuel : Nat) (buf : List Byte) : (scan fuel buf).2 <:+ buf := by
  induction fuel generalizing buf with
  | zero => exact List.suffix_refl buf
  | succ fuel ih =>
    have dropped : ∀ n, (scan fuel (buf.drop n)).2 <:+ buf := fun n =>
      (ih _).trans (List.drop_suffix n buf)
    rw [scan_succ]
    cases scanOutcome buf with
    | haltShort | haltWait => exact List.suffix_refl buf
    | nonsync | oversize | undersize | badcrc => exact dropped 1
    | emit => exact dropped (lengthByte buf + 2)

theorem scanAll_suffix (buf : List Byte) : (scanAll buf).2 <:+ buf :=
  scan_suffix buf.length buf

/-- A chunk that does not overflow is fed: the converse of `execFeed_next`. -/
theorem execFeed_of_not_overflows {chunk : List Byte} {s : State} (h : overflows s chunk = false) :
    execFeed chunk s =
      .next ((s.withBuf (scanAll (s.buf ++ chunk)).2).withResult (.frames (scanAll (s.buf ++ chunk)).1)) := by
  simp [execFeed, h, returnResult, bufAppend]

/-- RECEIVE leaves the buffer its FEED leaves, and completes only where that FEED does (R168). -/
theorem execReceive_buf {chunk : List Byte} {s t : State} (h : execReceive chunk s = .next t) :
    ∃ fed, execFeed chunk s = .next fed ∧ t.buf = fed.buf := by
  obtain ⟨fits, snap, -, rfl⟩ := execReceive_next h
  exact ⟨_, execFeed_of_not_overflows fits, rfl⟩

/-- The frame of the buffer: the instructions other than FEED, RECEIVE and RESET keep it. -/
theorem exec_keeps_buf {i : Instr} {s t : State} (h : exec i s = .next t)
    (stream : ∀ chunk, i ≠ .feed chunk ∧ i ≠ .receive chunk) (hreset : i ≠ .reset) : t.buf = s.buf := by
  cases i with
  | reset => exact absurd rfl hreset
  | feed chunk => exact absurd rfl (stream chunk).1
  | receive chunk => exact absurd rfl (stream chunk).2
  | checksum bytes | read =>
    obtain rfl := Host.Outcome.next.inj h
    rfl
  | encode channels => rcases execEncode_next h with rfl | rfl <;> rfl
  | parse frame =>
    obtain ⟨-, rfl⟩ := execParse_next h
    rfl
  | reserved111 operand => cases h
  | typeLinkStatistics payload | typeBatterySensor payload | typeGps payload | typeRcChannelsPacked payload
  | typeOther type payload =>
    obtain ⟨-, rfl⟩ := parsePayload_next h
    rfl

/-! ### The frame a type and a payload compose to (R60, R65) -/

@[simp] theorem composeFrame_length (type : Byte) (payload : List Byte) :
    (composeFrame type payload).length = payload.length + 4 := by
  simp [composeFrame]

@[simp] theorem typeByte_composeFrame (type : Byte) (payload : List Byte) :
    typeByte (composeFrame type payload) = type := rfl

/-- A payload that fits keeps its length byte within 8 bits (R64). -/
theorem lengthByte_composeFrame {type : Byte} {payload : List Byte} (h : payload.length ≤ 62) :
    lengthByte (composeFrame type payload) = payload.length + 2 := by
  change (BitVec.ofNat 8 (payload.length + 2)).toNat = payload.length + 2
  rw [BitVec.toNat_ofNat]
  exact Nat.mod_eq_of_lt (by omega)

theorem body_composeFrame {type : Byte} {payload : List Byte} (h : payload.length ≤ 62) :
    body (composeFrame type payload) = type :: payload := by
  rw [body, lengthByte_composeFrame h]
  simp [slice, composeFrame]

theorem payloadOf_composeFrame {type : Byte} {payload : List Byte} (h : payload.length ≤ 62) :
    payloadOf (composeFrame type payload) = payload := by
  rw [payloadOf, lengthByte_composeFrame h]
  simp [slice, composeFrame]

/-- The CRC byte stands behind the payload (R63). -/
theorem byteAt_composeFrame_crc (type : Byte) (payload : List Byte) :
    byteAt (composeFrame type payload) (payload.length + 3) = checksum (type :: payload) := by
  simp [composeFrame, byteAt]

/-- A payload that fits composes to a valid frame (R65). -/
theorem frameValid_composeFrame {type : Byte} {payload : List Byte} (h : payload.length ≤ 62) :
    FrameValid (composeFrame type payload) := by
  refine ⟨?_, rfl, ?_, ?_, ?_, ?_⟩
  · simp
  · simp [lengthByte_composeFrame h]
  · rw [lengthByte_composeFrame h]
    exact Nat.add_le_add_right h 2
  · simp [lengthByte_composeFrame h]
  · rw [lengthByte_composeFrame h, body_composeFrame h]
    exact byteAt_composeFrame_crc type payload

/-! ### The fields of the snapshot (R25, R27)

A commit either supplies a field's value, whatever the snapshot held, or keeps the field. What it supplies is
therefore what it commits to the absent snapshot, and the effect on any other snapshot is `Option.or` of the two. -/

theorem read_commitLinkStatistics (p : List Byte) (snap : Snapshot) (f : Field) :
    (commitLinkStatistics p snap).read f = ((commitLinkStatistics p .absent).read f).or (snap.read f) := by
  cases f <;> rfl

theorem read_commitBattery (p : List Byte) (snap : Snapshot) (f : Field) :
    (commitBattery p snap).read f = ((commitBattery p .absent).read f).or (snap.read f) := by
  cases f <;> rfl

theorem read_commitGps (p : List Byte) (snap : Snapshot) (f : Field) :
    (commitGps p snap).read f = ((commitGps p .absent).read f).or (snap.read f) := by
  cases f <;> rfl

theorem isSome_read_commitLinkStatistics (p : List Byte) (f : Field) :
    ((commitLinkStatistics p .absent).read f).isSome = decide (f.writtenBy = tLs) := by
  cases f <;> rfl

theorem isSome_read_commitBattery (p : List Byte) (f : Field) :
    ((commitBattery p .absent).read f).isSome = decide (f.writtenBy = tBat) := by
  cases f <;> rfl

theorem isSome_read_commitGps (p : List Byte) (f : Field) :
    ((commitGps p .absent).read f).isSome = decide (f.writtenBy = tGps) := by
  cases f <;> rfl

/-- The value a payload of this type supplies to a field, or `none` where it leaves the field alone. -/
def suppliedValue (type : Byte) (payload : List Byte) (f : Field) : Option Int :=
  (commitPayload type payload .absent).read f

/-- After a commit a field holds the value supplied, or what it held where none is. -/
theorem read_commitPayload (type : Byte) (payload : List Byte) (snap : Snapshot) (f : Field) :
    (commitPayload type payload snap).read f = (suppliedValue type payload f).or (snap.read f) := by
  unfold suppliedValue commitPayload
  split_ifs
  case pos => exact read_commitLinkStatistics payload snap f
  case pos => exact read_commitBattery payload snap f
  case pos => exact read_commitGps payload snap f
  all_goals simp

/-- A value is supplied only to the fields of the payload's own type (R25, column "written by type"). -/
theorem type_eq_writtenBy {type : Byte} {payload : List Byte} {f : Field} {v : Int}
    (h : suppliedValue type payload f = some v) : type = f.writtenBy := by
  replace h := Option.isSome_of_eq_some h
  unfold suppliedValue commitPayload at h
  split_ifs at h with hls _ hbat _ hgps
  · rw [isSome_read_commitLinkStatistics] at h
    exact hls.trans (of_decide_eq_true h).symm
  · simp at h
  · rw [isSome_read_commitBattery] at h
    exact hbat.trans (of_decide_eq_true h).symm
  · simp at h
  · rw [isSome_read_commitGps] at h
    exact hgps.trans (of_decide_eq_true h).symm
  · simp at h
  · simp at h

/-! ### The value a frame supplies (R27) -/

/-- The value PARSE of a frame supplies to a field, or `none` where it leaves the field alone. -/
def frameValue (frame : Frame) (f : Field) : Option Int :=
  suppliedValue (typeByte frame) (payloadOf frame) f

theorem frameValue_composeFrame {type : Byte} {payload : List Byte} (h : payload.length ≤ 62) (f : Field) :
    frameValue (composeFrame type payload) f = suppliedValue type payload f := by
  rw [frameValue, typeByte_composeFrame, payloadOf_composeFrame h]

/-- PARSE answers only on a valid frame, and then a field holds the frame's value, or what it held where the frame
has none. -/
theorem read_parseFrame {frame : Frame} {snap snap' : Snapshot} (h : parseFrame frame snap = some snap') (f : Field) :
    FrameValid frame ∧ snap'.read f = (frameValue frame f).or (snap.read f) := by
  unfold parseFrame at h
  split_ifs at h with hvalid
  obtain rfl := Option.some.inj h
  exact ⟨hvalid, read_commitPayload _ _ snap f⟩

/-- Over PARSEs in a row a field keeps its value, or the last frame that supplies one decides. -/
theorem read_parseFrames {frames : List Frame} {snap snap' : Snapshot}
    (h : parseFrames frames snap = some snap') (f : Field) :
    snap'.read f = snap.read f ∨
      ∃ frame ∈ frames, FrameValid frame ∧ ∃ v, frameValue frame f = some v ∧ snap'.read f = some v := by
  induction frames generalizing snap with
  | nil =>
    obtain rfl := Option.some.inj h
    exact .inl rfl
  | cons frame rest ih =>
    unfold parseFrames at h
    cases hp : parseFrame frame snap with
    | none => simp [hp] at h
    | some mid =>
      simp only [hp] at h
      obtain ⟨hvalid, hmid⟩ := read_parseFrame hp f
      obtain hkept | ⟨later, hmem, hlater⟩ := ih h
      · cases hv : frameValue frame f with
        | none => exact .inl (by simpa [hv] using hkept.trans hmid)
        | some v => exact .inr ⟨frame, List.mem_cons_self, hvalid, v, hv, by simpa [hv] using hkept.trans hmid⟩
      · exact .inr ⟨later, List.mem_cons_of_mem frame hmem, hlater⟩

/-- PARSE of a frame, whatever the snapshot, leaves a field it supplies at the value it supplies. -/
theorem execParse_read_of_frameValue {frame : Frame} {f : Field} {v : Int} (hv : frameValue frame f = some v)
    {s t : State} (h : exec (.parse frame) s = .next t) : t.snap.read f = some v := by
  obtain ⟨-, rfl⟩ := execParse_next h
  calc (commitPayload (typeByte frame) (payloadOf frame) s.snap).read f
      = (frameValue frame f).or (s.snap.read f) := read_commitPayload _ _ s.snap f
    _ = some v := by rw [hv, Option.some_or]

/-! ### What an instruction does to a field (R27) -/

/-- The transaction parses a valid frame that supplies a value to the field, and this is that value. -/
def SuppliesField (i : Instr) (result : Option Result) (f : Field) (value : Option Int) : Prop :=
  ∃ frame, ContainsParseOf i result frame ∧ FrameValid frame ∧ ∃ v, frameValue frame f = some v ∧ value = some v

/-- A transaction whose one PARSE is of this frame keeps the field or supplies it. -/
theorem kept_or_supplied_of_read {i : Instr} {result : Option Result} {frame : Frame} {f : Field}
    {before after : Option Int} (hparse : ContainsParseOf i result frame) (hvalid : FrameValid frame)
    (hread : after = (frameValue frame f).or before) : after = before ∨ SuppliesField i result f after := by
  cases hv : frameValue frame f with
  | none => exact .inl (by simpa [hv] using hread)
  | some v => exact .inr ⟨frame, hparse, hvalid, v, hv, by simpa [hv] using hread⟩

/-- A packet-type row keeps the field, or supplies it from the frame the row stands for. -/
theorem parsePayload_keeps_or_supplies {i : Instr} {type : Byte} {payload : List Byte} {s t : State}
    (h : parsePayload type payload s = .next t) (hparse : ContainsParseOf i t.result (composeFrame type payload))
    (f : Field) : t.snap.read f = s.snap.read f ∨ SuppliesField i t.result f (t.snap.read f) := by
  obtain ⟨hlen, rfl⟩ := parsePayload_next h
  refine kept_or_supplied_of_read hparse (frameValid_composeFrame hlen) ?_
  rw [frameValue_composeFrame hlen]
  exact read_commitPayload type payload s.snap f

/-- Every instruction but RESET keeps a field, or supplies it by a PARSE it contains. -/
theorem exec_keeps_or_supplies {i : Instr} {s t : State} (h : exec i s = .next t) (hreset : i ≠ .reset) (f : Field) :
    t.snap.read f = s.snap.read f ∨ SuppliesField i t.result f (t.snap.read f) := by
  cases i with
  | reset => exact absurd rfl hreset
  | checksum bytes | read =>
    obtain rfl := Host.Outcome.next.inj h
    exact .inl rfl
  | encode channels => rcases execEncode_next h with rfl | rfl <;> exact .inl rfl
  | feed chunk =>
    obtain ⟨-, rfl⟩ := execFeed_next h
    exact .inl rfl
  | parse frame =>
    obtain ⟨hvalid, rfl⟩ := execParse_next h
    exact kept_or_supplied_of_read rfl hvalid (read_commitPayload _ _ s.snap f)
  | receive chunk =>
    obtain ⟨-, snap, hparsed, rfl⟩ := execReceive_next h
    obtain hkept | ⟨frame, hmem, hsupplied⟩ := read_parseFrames hparsed f
    · exact .inl hkept
    · exact .inr ⟨frame, ⟨_, rfl, hmem⟩, hsupplied⟩
  | reserved111 operand => cases h
  | typeLinkStatistics payload | typeBatterySensor payload | typeGps payload | typeRcChannelsPacked payload
  | typeOther type payload =>
    refine parsePayload_keeps_or_supplies h ?_ f
    exact rfl

end Sys2Proof.Machine

open Sys2Proof Sys2Proof.Machine

/-- Settles O38: the scan leaves a suffix of what it is given, RECEIVE leaves its FEED's buffer, and the frame of the
buffer covers the rest. -/
theorem bufferChangesOnlyByFeedAndReset : Obligations.BufferChangesOnlyByFeedAndReset := by
  intro i s t h
  refine ⟨?feed, ?receive, ?reset, exec_keeps_buf h⟩
  case feed =>
    rintro chunk rfl
    obtain ⟨-, rfl⟩ := execFeed_next h
    exact scanAll_suffix (s.buf ++ chunk)
  case receive =>
    rintro chunk rfl
    exact execReceive_buf h
  case reset =>
    rintro rfl
    obtain rfl := Host.Outcome.next.inj h
    rfl

/-- Settles O49: an instruction other than RESET keeps a field or supplies it from a frame, and what a frame supplies
depends on neither the snapshot nor any type but the field's own. -/
theorem snapshotFieldsChangeOnlyByTheirType : Obligations.SnapshotFieldsChangeOnlyByTheirType := by
  intro i s t f h
  refine ⟨fun hreset hpresent => ?present, fun hchanged => or_iff_not_imp_left.mpr fun hreset => ?supplied⟩
  case present =>
    obtain hkept | ⟨frame, -, -, v, -, hv⟩ := exec_keeps_or_supplies h hreset f
    · rwa [hkept]
    · simp [hv]
  case supplied =>
    obtain hkept | ⟨frame, hparse, hvalid, v, hframe, hv⟩ := exec_keeps_or_supplies h hreset f
    · exact absurd hkept hchanged
    · exact ⟨frame, hparse, hvalid, type_eq_writtenBy hframe, v, hv, fun _ _ => execParse_read_of_frameValue hframe⟩
end

section
/-! PROOF. The channel packer (spec/41_frame_encoder.md R110): the packed bytes and the channels are one stream of bits,
cut into words of 8 and of 11 (spec/20_memory.md R43). -/

namespace Sys2Proof.Machine

/-! ### The bit stream of a list of words (R43) -/

/-- Bit s of the words laid end to end, each least significant bit first; false past their end. -/
def streamBit {w : Nat} (words : List (BitVec w)) (s : Nat) : Bool :=
  (words.getD (s / w) 0).getLsbD (s % w)

theorem streamBit_of_le {w : Nat} (hw : 0 < w) {words : List (BitVec w)} {s : Nat} (h : w * words.length ≤ s) :
    streamBit words s = false := by
  have past : words.length ≤ s / w := (Nat.le_div_iff_mul_le hw).mpr (by rwa [Nat.mul_comm])
  rw [streamBit, List.getD_eq_default _ _ past]
  exact BitVec.getLsbD_zero

/-- Bit b of word i is stream bit w * i + b. -/
theorem streamBit_mul_add {w : Nat} (words : List (BitVec w)) (i : Nat) {b : Nat} (h : b < w) :
    streamBit words (w * i + b) = (words.getD i 0).getLsbD b := by
  rw [streamBit, Nat.mul_add_div (Nat.zero_lt_of_lt h), Nat.mul_add_mod, Nat.div_eq_of_lt h, Nat.mod_eq_of_lt h,
    Nat.add_zero]

/-- A word appended to the list supplies the bits above those of the list. -/
theorem streamBit_concat {w : Nat} (hw : 0 < w) (words : List (BitVec w)) (x : BitVec w) (s : Nat) :
    streamBit (words ++ [x]) s = (streamBit words s || (x.toNat <<< (w * words.length)).testBit s) := by
  obtain below | atLeast := Nat.lt_or_ge s (w * words.length)
  · have inside : s / w < words.length := Nat.div_lt_of_lt_mul below
    rw [streamBit, List.getD_append _ _ _ _ inside, ← streamBit]
    simp [Nat.not_le.mpr below]
  · obtain ⟨b, rfl⟩ := Nat.exists_eq_add_of_le atLeast
    obtain inLast | past := Nat.lt_or_ge b w
    · simp [streamBit_mul_add _ _ inLast, BitVec.testBit_toNat]
    · have beyond : w * (words ++ [x]).length ≤ w * words.length + b := by
        rw [List.length_append, List.length_singleton, Nat.mul_add, Nat.mul_one]
        exact Nat.add_le_add_left past _
      simp [streamBit_of_le hw beyond, streamBit_of_le hw atLeast, BitVec.testBit_toNat, BitVec.getLsbD_of_ge x b past]

/-! ### The packer's state holds the channels' stream (R110) -/

/-- Stream bit s as the packer's state holds it: in a byte already pulled out, or in the bit buffer above those. -/
def PackState.bit (st : PackState) (s : Nat) : Bool :=
  streamBit st.out s || (st.acc <<< (8 * st.out.length)).testBit s

/-- The packer's state holds the stream of these channels, and as many bits as they have. -/
structure PackState.Holds (st : PackState) (channels : List Channel) : Prop where
  count : 8 * st.out.length + st.n = 11 * channels.length
  bits : ∀ s, st.bit s = streamBit channels s

/-- The bit buffer has no bits above the n it holds. -/
theorem PackState.Holds.acc_lt {st : PackState} {channels : List Channel} (h : st.Holds channels) :
    st.acc < 2 ^ st.n := by
  refine Nat.lt_pow_two_of_testBit _ fun b hb => ?_
  have above : st.bit (8 * st.out.length + b) = false := by
    rw [h.bits, streamBit_of_le (by decide)]
    exact h.count ▸ Nat.add_le_add_left hb _
  simpa using (Bool.or_eq_false_iff.mp above).2

/-- A number is the bits above its low k, and the low k. -/
theorem shiftRight_shiftLeft_or_mod (a k : Nat) : (a >>> k) <<< k ||| a % 2 ^ k = a := by
  rw [Nat.shiftRight_eq_div_pow, Nat.shiftLeft_eq, Nat.mul_comm,
    ← Nat.two_pow_add_eq_or_of_lt (Nat.mod_lt a (Nat.two_pow_pos k)), Nat.div_add_mod]

/-- Pulling out the low byte of the bit buffer moves no stream bit. -/
theorem bit_pull (acc n m : Nat) (out : List Byte) (s : Nat) :
    PackState.bit ⟨acc >>> 8, m, out ++ [BitVec.ofNat 8 acc]⟩ s = PackState.bit ⟨acc, n, out⟩ s := by
  have lowByteCut : acc <<< (8 * out.length) =
      (acc >>> 8) <<< (8 * (out.length + 1)) ||| (acc % 2 ^ 8) <<< (8 * out.length) := by
    rw [Nat.mul_add, Nat.mul_one, Nat.add_comm, Nat.shiftLeft_add, ← Nat.shiftLeft_or_distrib,
      shiftRight_shiftLeft_or_mod]
  simp only [PackState.bit]
  rw [streamBit_concat (by decide), lowByteCut, Nat.testBit_or, BitVec.toNat_ofNat, List.length_append,
    List.length_singleton, Bool.or_assoc, Bool.or_comm (Nat.testBit _ _)]

theorem pullBytes_holds {fuel : Nat} {st : PackState} {channels : List Channel} (h : st.Holds channels) :
    (pullBytes fuel st).Holds channels := by
  induction fuel generalizing st with
  | zero => exact h
  | succ fuel ih =>
    unfold pullBytes
    split_ifs with full
    · refine ih ⟨?_, fun s => (bit_pull st.acc st.n _ st.out s).trans (h.bits s)⟩
      have count := h.count
      simp only [List.length_append, List.length_singleton]
      omega
    · exact h

/-- With as many rounds as bits, less than a byte stays in the bit buffer. -/
theorem pullBytes_n_lt {fuel : Nat} {st : PackState} (h : st.n ≤ fuel) : (pullBytes fuel st).n < 8 := by
  induction fuel generalizing st with
  | zero => exact Nat.lt_of_le_of_lt h (by decide)
  | succ fuel ih =>
    unfold pullBytes
    split_ifs with full
    · exact ih (by dsimp only; omega)
    · exact Nat.lt_of_not_le full

theorem packChannel_n_lt (st : PackState) (c : Channel) : (packChannel st c).n < 8 :=
  pullBytes_n_lt le_rfl

theorem packChannel_holds {st : PackState} {channels : List Channel} (h : st.Holds channels) (c : Channel) :
    (packChannel st c).Holds (channels ++ [c]) := by
  refine pullBytes_holds ⟨?count, fun s => ?bits⟩
  case count =>
    rw [List.length_append, List.length_singleton, Nat.mul_add, ← h.count, Nat.add_assoc]
  case bits =>
    rw [streamBit_concat (by decide), ← h.bits s, ← h.count]
    simp only [PackState.bit, Nat.shiftLeft_or_distrib, Nat.testBit_or, Bool.or_assoc, Nat.add_comm (8 * _),
      Nat.shiftLeft_add]

/-- After any channels the packer holds their stream, less than a byte of it in the bit buffer. -/
theorem foldl_packChannel_holds (channels : List Channel) :
    (channels.foldl packChannel ⟨0, 0, []⟩).Holds channels ∧ (channels.foldl packChannel ⟨0, 0, []⟩).n < 8 := by
  induction channels using List.reverseRecOn with
  | nil => exact ⟨⟨rfl, fun s => by simp [PackState.bit, streamBit]⟩, by decide⟩
  | append_singleton channels c ih =>
    rw [List.foldl_concat]
    obtain ⟨holds, -⟩ := ih
    exact ⟨packChannel_holds holds c, packChannel_n_lt _ c⟩

/-! ### The packed bytes (R43, R110) -/

theorem flushPartial_length {st : PackState} {channels : List Channel} (h : st.Holds channels) (hn : st.n < 8) :
    (flushPartial st).length = (11 * channels.length + 7) / 8 := by
  have count := h.count
  unfold flushPartial
  split_ifs
  · rw [List.length_append, List.length_singleton]
    omega
  · omega

/-- The flush keeps the stream: what stays in the bit buffer fits the one byte flushed. -/
theorem streamBit_flushPartial {st : PackState} {channels : List Channel} (h : st.Holds channels) (hn : st.n < 8)
    (s : Nat) : streamBit (flushPartial st) s = streamBit channels s := by
  rw [← h.bits s]
  unfold flushPartial
  split_ifs with partialByte
  · have fits : st.acc < 2 ^ 8 := h.acc_lt.trans (Nat.pow_lt_pow_right (by decide) hn)
    rw [streamBit_concat (by decide), BitVec.toNat_ofNat, Nat.mod_eq_of_lt fits, PackState.bit]
  · have empty : st.acc = 0 := by
      have accLt := h.acc_lt
      simpa [Nat.eq_zero_of_not_pos partialByte] using accLt
    simp [PackState.bit, empty]

/-- PACK of any number of channels gives the bytes their bits fill, the last one possibly in part. -/
theorem pack_length (channels : List Channel) : (pack channels).length = (11 * channels.length + 7) / 8 :=
  have ⟨holds, hn⟩ := foldl_packChannel_holds channels
  flushPartial_length holds hn

/-- PACK keeps the bit stream, whatever the number of channels. -/
theorem streamBit_pack (channels : List Channel) (s : Nat) : streamBit (pack channels) s = streamBit channels s :=
  have ⟨holds, hn⟩ := foldl_packChannel_holds channels
  streamBit_flushPartial holds hn s

end Sys2Proof.Machine

open Sys2Proof Sys2Proof.Machine

/-- Settles O23: PACK keeps the bit stream, and channel i supplies bits 11i to 11i+10 of it. -/
theorem packPlacesEveryBit : Obligations.PackPlacesEveryBit := by
  intro c hlen
  refine ⟨by rw [pack_length, hlen], fun i b _ hb => ?_⟩
  calc (byteAt (pack c) ((11 * i + b) / 8)).getLsbD ((11 * i + b) % 8)
      = streamBit (pack c) (11 * i + b) := rfl
    _ = streamBit c (11 * i + b) := streamBit_pack c _
    _ = (c.getD i 0).getLsbD b := streamBit_mul_add c i hb
end

section
/-! PROOF. SCAN_STEP (spec/42_frame_decoder.md R131 to R137): a complete candidate taken apart into its bytes, and the
test each outcome holds under. -/

namespace Sys2Proof.Machine

/-! ### A complete candidate, byte by byte (R60, R131) -/

/-- The candidate with this type, payload and CRC byte, the CRC right or wrong. -/
def candidateOf (type : Byte) (payload : List Byte) (crc : Byte) : Frame :=
  [sync, BitVec.ofNat 8 (payload.length + 2), type] ++ payload ++ [crc]

theorem candidateOf_checksum (type : Byte) (payload : List Byte) :
    candidateOf type payload (checksum (type :: payload)) = composeFrame type payload := rfl

@[simp] theorem candidateOf_length (type : Byte) (payload : List Byte) (crc : Byte) :
    (candidateOf type payload crc).length = payload.length + 4 := by
  simp [candidateOf]

/-- The length byte counts type, payload and CRC, whatever stands behind the candidate (R62). -/
theorem lengthByte_candidateOf_append {type crc : Byte} {payload : List Byte} (h : payload.length ≤ 62)
    (rest : List Byte) : lengthByte (candidateOf type payload crc ++ rest) = payload.length + 2 :=
  lengthByte_composeFrame (type := type) h

theorem candidate_candidateOf_append {type crc : Byte} {payload : List Byte} (h : payload.length ≤ 62)
    (rest : List Byte) : candidate (candidateOf type payload crc ++ rest) = candidateOf type payload crc := by
  rw [candidate, lengthByte_candidateOf_append h, slice_append_left (by simp)]
  exact List.take_of_length_le (by simp)

theorem body_candidateOf {type crc : Byte} {payload : List Byte} (h : payload.length ≤ 62) :
    body (candidateOf type payload crc) = type :: payload := by
  have length := lengthByte_candidateOf_append (type := type) (crc := crc) h []
  rw [List.append_nil] at length
  rw [body, length]
  simp [slice, candidateOf]

theorem byteAt_candidateOf_crc (type : Byte) (payload : List Byte) (crc : Byte) :
    byteAt (candidateOf type payload crc) (payload.length + 3) = crc := by
  simp [candidateOf, byteAt]

/-- SCAN_STEP passes a complete candidate on to its last test, the CRC (R136, R137). -/
theorem scanOutcome_candidateOf_append {type crc : Byte} {payload : List Byte} (h : payload.length ≤ 62)
    (rest : List Byte) : scanOutcome (candidateOf type payload crc ++ rest) =
      if crc = checksum (type :: payload) then .emit else .badcrc := by
  have atSync : byteAt (candidateOf type payload crc ++ rest) 0 = sync := rfl
  have length : (candidateOf type payload crc ++ rest).length = payload.length + 4 + rest.length := by simp
  rw [scanOutcome, lengthByte_candidateOf_append h, candidate_candidateOf_append h, body_candidateOf h,
    byteAt_candidateOf_crc, length, if_neg (by omega), if_neg (not_not.mpr atSync),
    if_neg (Nat.not_lt.mpr (Nat.add_le_add_right h 2)), if_neg (Nat.not_lt.mpr (Nat.le_add_left 2 payload.length)),
    if_neg (by omega)]

/-- The buffer starts with a candidate that no test before the CRC rejects or waits for (R131). -/
structure HoldsCandidate (b : List Byte) : Prop where
  atSync : byteAt b 0 = sync
  atLeast : 2 ≤ lengthByte b
  atMost : lengthByte b ≤ 64
  whole : lengthByte b + 2 ≤ b.length

theorem HoldsCandidate.eq_candidateOf_append {b : List Byte} (h : HoldsCandidate b) :
    ∃ type payload crc rest, payload.length ≤ 62 ∧ b = candidateOf type payload crc ++ rest := by
  obtain ⟨atSync, atLeast, atMost, whole⟩ := h
  match b with
  | [] | [_] | [_, _] => simp only [List.length_nil, List.length_cons] at whole; omega
  | first :: length :: type :: tail =>
    obtain rfl : first = sync := atSync
    change 2 ≤ length.toNat at atLeast
    change length.toNat ≤ 64 at atMost
    change length.toNat + 2 ≤ tail.length + 3 at whole
    have payloadLength : (tail.take (length.toNat - 2)).length = length.toNat - 2 :=
      List.length_take_of_le (by omega)
    have lengthEq : BitVec.ofNat 8 (length.toNat - 2 + 2) = length := by
      rw [Nat.sub_add_cancel atLeast, BitVec.ofNat_toNat, BitVec.setWidth_eq]
    refine ⟨type, tail.take (length.toNat - 2), tail[length.toNat - 2], tail.drop (length.toNat - 2 + 1),
      by omega, ?_⟩
    simp [candidateOf, payloadLength, lengthEq]

/-! ### The test of each outcome (R132 to R137) -/

/-- The condition the spec gives an outcome of SCAN_STEP. -/
def ScanTest (b : List Byte) : ScanOutcome → Prop
  | .haltShort => b.length < 4
  | .nonsync => 4 ≤ b.length ∧ byteAt b 0 ≠ sync
  | .oversize => 4 ≤ b.length ∧ byteAt b 0 = sync ∧ 64 < lengthByte b
  | .undersize => 4 ≤ b.length ∧ byteAt b 0 = sync ∧ lengthByte b < 2
  | .haltWait => AwaitsFrame b
  | .emit => ∃ type payload rest, payload.length ≤ 62 ∧
      b = composeFrame type payload ++ rest
  | .badcrc => ∃ type payload crc rest, payload.length ≤ 62 ∧ crc ≠ checksum (type :: payload) ∧
      b = candidateOf type payload crc ++ rest

/-- The test of the outcome SCAN_STEP comes to holds. -/
theorem scanTest_scanOutcome (b : List Byte) : ScanTest b (scanOutcome b) := by
  by_cases complete : HoldsCandidate b
  · obtain ⟨type, payload, crc, rest, fits, rfl⟩ := complete.eq_candidateOf_append
    rw [scanOutcome_candidateOf_append fits]
    split_ifs with hcrc
    · exact ⟨type, payload, rest, fits, by rw [hcrc, candidateOf_checksum]⟩
    · exact ⟨type, payload, crc, rest, fits, hcrc, rfl⟩
  · unfold scanOutcome
    split_ifs with short nonsync oversize undersize incomplete
    case pos => exact short
    case pos => exact ⟨Nat.le_of_not_lt short, nonsync⟩
    case pos => exact ⟨Nat.le_of_not_lt short, not_not.mp nonsync, oversize⟩
    case pos => exact ⟨Nat.le_of_not_lt short, not_not.mp nonsync, undersize⟩
    case pos => exact ⟨not_not.mp nonsync, Nat.le_of_not_lt undersize, Nat.le_of_not_lt oversize,
      Nat.le_of_not_lt short, incomplete⟩
    all_goals exact absurd ⟨not_not.mp nonsync, Nat.le_of_not_lt undersize, Nat.le_of_not_lt oversize,
      Nat.le_of_not_lt incomplete⟩ complete

/-- The tests exclude each other: SCAN_STEP comes to the outcome whose test holds. -/
theorem scanOutcome_of_scanTest {b : List Byte} {o : ScanOutcome} (h : ScanTest b o) : scanOutcome b = o := by
  cases o with
  | haltShort => exact if_pos h
  | nonsync =>
    obtain ⟨long, nonsync⟩ := h
    rw [scanOutcome, if_neg (Nat.not_lt.mpr long), if_pos nonsync]
  | oversize =>
    obtain ⟨long, atSync, oversize⟩ := h
    rw [scanOutcome, if_neg (Nat.not_lt.mpr long), if_neg (not_not.mpr atSync), if_pos oversize]
  | undersize =>
    obtain ⟨long, atSync, undersize⟩ := h
    rw [scanOutcome, if_neg (Nat.not_lt.mpr long), if_neg (not_not.mpr atSync),
      if_neg (Nat.not_lt.mpr (undersize.le.trans (by decide))), if_pos undersize]
  | haltWait =>
    obtain ⟨atSync, atLeast, atMost, long, incomplete⟩ := h
    unfold scanOutcome lengthByte
    rw [if_neg (Nat.not_lt.mpr long), if_neg (not_not.mpr atSync), if_neg (Nat.not_lt.mpr atMost),
      if_neg (Nat.not_lt.mpr atLeast), if_pos incomplete]
  | emit =>
    obtain ⟨type, payload, rest, fits, rfl⟩ := h
    rw [← candidateOf_checksum, scanOutcome_candidateOf_append fits, if_pos rfl]
  | badcrc =>
    obtain ⟨type, payload, crc, rest, fits, hcrc, rfl⟩ := h
    rw [scanOutcome_candidateOf_append fits, if_neg hcrc]

theorem scanOutcome_eq_iff (b : List Byte) (o : ScanOutcome) : scanOutcome b = o ↔ ScanTest b o :=
  ⟨fun h => h ▸ scanTest_scanOutcome b, scanOutcome_of_scanTest⟩

/-! ### The two logical states (R131) -/

theorem awaitingFrame_iff (b : List Byte) : awaitingFrame b = true ↔ AwaitsFrame b := by
  rw [awaitingFrame, decide_eq_true_iff]
  constructor
  · rintro ⟨long, atSync, atLeast, atMost, incomplete⟩
    exact ⟨atSync, atLeast, atMost, long, incomplete⟩
  · rintro ⟨atSync, atLeast, atMost, long, incomplete⟩
    exact ⟨long, atSync, atLeast, atMost, incomplete⟩

theorem seekingSync_iff (b : List Byte) :
    seekingSync b = true ↔ b.length < 4 ∨ (4 ≤ b.length ∧ byteAt b 0 ≠ sync) := by
  rw [seekingSync, Bool.or_eq_true, decide_eq_true_iff, bne_iff_ne]
  exact or_congr_right' fun long => (and_iff_right (Nat.le_of_not_lt long)).symm

end Sys2Proof.Machine

open Sys2Proof Sys2Proof.Machine

/-- Settles O27: each outcome's clause is its test, and the two logical states are tests of the buffer. -/
theorem scanOutcomesAreTheTests : Obligations.ScanOutcomesAreTheTests := by
  intro b
  have test := scanOutcome_eq_iff b
  exact ⟨test .haltShort, test .nonsync, test .oversize, test .undersize, test .haltWait,
    (awaitingFrame_iff b).trans (test .haltWait).symm,
    (seekingSync_iff b).trans (or_congr (test .haltShort) (test .nonsync)).symm, test .emit, test .badcrc⟩
end

section
/-! PROOF. The writer path's two operations: CHECKSUM (spec/40_checksum.md R101, R102) and ENCODE
(spec/41_frame_encoder.md R112, R116). Each of their endings is written as the state before with another result, so
that it shows what is kept. -/

namespace Sys2Proof.Machine

/-! ### The fold of CRC8_STEP (R100, R101) -/

/-- CRC8_STEP maps zeros to zero: its shifts are linear. -/
theorem crc8Step_zero_zero : crc8Step 0x00 0x00 = 0x00 := by
  rw [crc8Step_xor, crcShifts_xor]
  exact BitVec.xor_self

/-- The checksum of one byte more is one step more. -/
theorem checksum_concat (bytes : List Byte) (b : Byte) : checksum (bytes ++ [b]) = crc8Step (checksum bytes) b :=
  checksum_append bytes [b]

theorem checksum_replicate_zero (n : Nat) : checksum (List.replicate n 0x00) = 0x00 := by
  induction n with
  | zero => rfl
  | succ n ih => rw [List.replicate_succ', checksum_concat, ih, crc8Step_zero_zero]

/-! ### The endings of CHECKSUM and ENCODE (R101, R112) -/

/-- CHECKSUM completes in every state. -/
theorem exec_checksum (bytes : List Byte) (s : State) :
    exec (.checksum bytes) s = .next (s.withResult (.byte (checksum bytes))) := rfl

/-- From 16 values ENCODE returns their frame. -/
theorem exec_encode_of_length {channels : List Int} (h : channels.length = 16) (s : State) :
    exec (.encode channels) s = .next (s.withResult (.frame (encodeFrame channels))) :=
  if_pos h

/-- From any other number of values ENCODE ends in the error, and the machine goes on (R201). -/
theorem exec_encode_of_length_ne {channels : List Int} (h : channels.length ≠ 16) (s : State) :
    exec (.encode channels) s = .next (s.withResult (.inputLengthError channels.length)) :=
  if_neg h

end Sys2Proof.Machine

open Sys2Proof Sys2Proof.Machine

/-- Settles O14: CHECKSUM returns its fold, which is taken byte by byte from 0x00; over zero bytes it stays there. -/
theorem checksumReturnsFoldOfSteps : Obligations.ChecksumReturnsFoldOfSteps :=
  ⟨exec_checksum, rfl, checksum_concat, checksum_replicate_zero⟩

/-- Settles O21: which result ENCODE gives turns on the number of values alone, and each result is named by the
operand. -/
theorem writerOperationsArePure : Obligations.WriterOperationsArePure := by
  refine ⟨fun bytes => ⟨_, exec_checksum bytes⟩, fun channels => ?_⟩
  by_cases count : channels.length = 16
  · exact ⟨_, exec_encode_of_length count⟩
  · exact ⟨_, exec_encode_of_length_ne count⟩
end

section
/-! PROOF. ENCODE's frame (spec/41_frame_encoder.md R111, R112) and the two round trips of PACK and UNPACK (R114, R115):
UNPACK cuts into words of 11 the stream of bits that PACK cut into words of 8. -/

namespace Sys2Proof.Machine

/-! ### The channel operand (R111) -/

theorem toNat_channelOfInt (v : Int) : (channelOfInt v).toNat = (v % 2048).toNat :=
  BitVec.toNat_ofInt v

/-- The operand is the value mod 2048, as an integer: the remainder is never negative (R10). -/
theorem cast_toNat_channelOfInt (v : Int) : ((channelOfInt v).toNat : Int) = v % 2048 := by
  rw [toNat_channelOfInt, Int.toNat_of_nonneg (Int.emod_nonneg v (by decide))]

theorem ofNat_emod_eq_channelOfInt (v : Int) : BitVec.ofNat 11 (v % 2048).toNat = channelOfInt v := by
  rw [← toNat_channelOfInt, BitVec.ofNat_toNat, BitVec.setWidth_eq]

/-! ### The frame of packed channels (R112) -/

/-- A payload of 22 bytes of type RC_CHANNELS_PACKED composes to the layout of R112. -/
theorem composeFrame_tRc {packed : List Byte} (h : packed.length = 22) :
    composeFrame tRc packed = [0xC8, 0x18, 0x16] ++ packed ++ [checksum (0x16 :: packed)] := by
  rw [composeFrame, h]
  rfl

/-- 16 channels fill 22 bytes (R110). -/
theorem pack_length_of_length {channels : List Channel} (h : channels.length = 16) : (pack channels).length = 22 := by
  rw [pack_length, h]

theorem pack_channelOfInt_length {channels : List Int} (h : channels.length = 16) :
    (pack (channels.map channelOfInt)).length = 22 :=
  pack_length_of_length (by rwa [List.length_map])

/-- Bytes 3 to 24 of an encoded frame are the packed channels. -/
theorem slice_encodeFrame {channels : List Int} (h : channels.length = 16) :
    slice (encodeFrame channels) 3 24 = pack (channels.map channelOfInt) := by
  have packed := pack_channelOfInt_length h
  have fits : (pack (channels.map channelOfInt)).length ≤ 62 := packed.trans_le (by decide)
  have payload := payloadOf_composeFrame (type := tRc) fits
  rwa [payloadOf, lengthByte_composeFrame fits, packed] at payload

/-! ### UNPACK keeps the bit stream (R114) -/

/-- Lists of words of one length are equal when their streams are. -/
theorem eq_of_streamBit_eq {w : Nat} {xs ys : List (BitVec w)} (length : xs.length = ys.length)
    (bits : ∀ s, streamBit xs s = streamBit ys s) : xs = ys := by
  refine List.ext_getElem length fun i hx hy => BitVec.eq_of_getLsbD_eq fun b hb => ?_
  simpa [streamBit_mul_add _ i hb, hx, hy] using bits (w * i + b)

/-- The little-endian value of n bytes holds their stretch of the stream. -/
theorem testBit_le (bytes : List Byte) (off n s : Nat) :
    (le bytes off n).testBit s = (decide (s < 8 * n) && streamBit bytes (8 * off + s)) := by
  induction n generalizing off s with
  | zero => simp [le]
  | succ n ih =>
    rw [le, Nat.add_comm, Nat.testBit_two_pow_mul_add (i := 8) _ (byteAt bytes off).isLt]
    split_ifs with inFirst
    · have below : s < 8 * (n + 1) := by omega
      rw [streamBit_mul_add _ _ inFirst, BitVec.testBit_toNat, decide_eq_true below, Bool.true_and]
      rfl
    · have rest : s - 8 < 8 * n ↔ s < 8 * (n + 1) := by omega
      have sameBit : 8 * (off + 1) + (s - 8) = 8 * off + s := by omega
      rw [ih, decide_eq_decide.mpr rest, sameBit]

theorem unpack_length (packed : List Byte) : (unpack packed).length = 16 := by
  simp [unpack]

/-- Bit b of the channel at index i. -/
theorem getLsbD_getD_unpack (packed : List Byte) {i b : Nat} (hi : i < 16) (hb : b < 11) :
    ((unpack packed).getD i 0).getLsbD b = streamBit packed (11 * i + b) := by
  have inside : 11 * i + b < 8 * packedLen := by simp only [packedLen]; omega
  have channel : (unpack packed).getD i 0 = BitVec.ofNat 11 (le packed 0 packedLen >>> (chBits * i)) := by
    simp [unpack, hi]
  rw [channel, BitVec.getLsbD_ofNat, Nat.testBit_shiftRight, testBit_le]
  simp [hb, inside]

/-- UNPACK of 22 bytes keeps the bit stream. -/
theorem streamBit_unpack {packed : List Byte} (h : packed.length = 22) (s : Nat) :
    streamBit (unpack packed) s = streamBit packed s := by
  obtain inside | past := Nat.lt_or_ge s 176
  · rw [streamBit, getLsbD_getD_unpack packed (by omega) (Nat.mod_lt s (by decide)), Nat.div_add_mod]
  · rw [streamBit_of_le (by decide) (by rwa [unpack_length]), streamBit_of_le (by decide) (by rwa [h])]

/-! ### The round trips (R115) -/

theorem unpack_pack {channels : List Channel} (h : channels.length = 16) : unpack (pack channels) = channels := by
  refine eq_of_streamBit_eq ((unpack_length _).trans h.symm) fun s => ?_
  rw [streamBit_unpack (pack_length_of_length h), streamBit_pack]

theorem pack_unpack {packed : List Byte} (h : packed.length = 22) : pack (unpack packed) = packed := by
  refine eq_of_streamBit_eq ((pack_length_of_length (unpack_length packed)).trans h.symm) fun s => ?_
  rw [streamBit_pack, streamBit_unpack h]

/-- UNPACK of an encoded frame's payload gives the channel operands back. -/
theorem unpack_slice_encodeFrame {channels : List Int} (h : channels.length = 16) :
    unpack (slice (encodeFrame channels) 3 24) = channels.map channelOfInt := by
  rw [slice_encodeFrame h, unpack_pack (by rwa [List.length_map])]

end Sys2Proof.Machine

open Sys2Proof Sys2Proof.Machine

/-- Settles O20: the count decides between the error and the frame; the frame composes the type and the 22 packed
bytes, a payload that fits. -/
theorem encodeReturnsFrame : Obligations.EncodeReturnsFrame := by
  intro channels s
  refine ⟨fun wrongCount => exec_encode_of_length_ne wrongCount s, fun count => ?_⟩
  have packed := pack_channelOfInt_length count
  simp only [ofNat_emod_eq_channelOfInt]
  refine ⟨_, rfl, packed, ?returned, ?valid⟩
  case returned =>
    rw [← composeFrame_tRc packed]
    exact exec_encode_of_length count s
  case valid =>
    rw [← composeFrame_tRc packed]
    exact frameValid_composeFrame (packed.trans_le (by decide))

/-- Settles O26: PACK and UNPACK keep the bit stream, which determines a list of 16 channels or 22 bytes; an encoded
frame carries the packed values mod 2048. -/
theorem packAndUnpackAreInverse : Obligations.PackAndUnpackAreInverse := by
  refine ⟨fun _ => unpack_pack, fun _ => pack_unpack, fun channels s count => ?_⟩
  refine ⟨_, exec_encode_of_length count s, ?_⟩
  rw [unpack_slice_encodeFrame count, List.map_map]
  exact List.map_congr_left fun v _ => cast_toNat_channelOfInt v
end

section
/-! PROOF. FEED one SCAN_STEP at a time (spec/42_frame_decoder.md R130 to R138): what the scan does with a buffer whose
next outcome is known, and with it FEED of a chunk that fits. -/

namespace Sys2Proof.Machine

/-! ### The scan by its next outcome (R131) -/

/-- A halt examines and drops nothing (R132, R135). -/
theorem scanAll_of_halted {b : List Byte} (h : ScanHalted b) : scanAll b = ([], b) := by
  obtain short | waiting := h
  · rw [scanAll_eq, scanOutcome_of_scanTest (o := .haltShort) short]
  · rw [scanAll_eq, scanOutcome_of_scanTest (o := .haltWait) waiting]

/-- Outcomes that remove one byte and signal nothing (R133, R134, R137, R138). -/
def ScanOutcome.Drops : ScanOutcome → Prop
  | .nonsync | .oversize | .undersize | .badcrc => True
  | .haltShort | .haltWait | .emit => False

/-- After a drop the scan is the scan of what follows the byte (R138). -/
theorem scanAll_of_drops {b : List Byte} {o : ScanOutcome} (drops : o.Drops) (h : ScanTest b o) :
    scanAll b = scanAll (b.drop 1) := by
  rw [scanAll_eq, scanOutcome_of_scanTest h]
  cases o with
  | nonsync | oversize | undersize | badcrc => rfl
  | haltShort | haltWait | emit => exact drops.elim

/-- A frame at the front is emitted and removed whole (R136). -/
theorem scanAll_composeFrame_append {type : Byte} {payload : List Byte} (h : payload.length ≤ 62) (rest : List Byte) :
    scanAll (composeFrame type payload ++ rest) =
      (composeFrame type payload :: (scanAll rest).1, (scanAll rest).2) := by
  have behind : (composeFrame type payload ++ rest).drop (payload.length + 2 + 2) = rest :=
    List.drop_left' (composeFrame_length type payload)
  rw [scanAll_eq, scanOutcome_of_scanTest (o := .emit) ⟨type, payload, rest, h, rfl⟩, ← candidateOf_checksum,
    candidate_candidateOf_append h, lengthByte_candidateOf_append h, candidateOf_checksum, behind]

/-- A frame alone is emitted, and no byte is left. -/
theorem scanAll_composeFrame {type : Byte} {payload : List Byte} (h : payload.length ≤ 62) :
    scanAll (composeFrame type payload) = ([composeFrame type payload], []) := by
  have scanned := scanAll_composeFrame_append (type := type) h []
  rwa [List.append_nil, scanAll_of_halted (b := []) (.inl (by decide))] at scanned

/-! ### FEED of a chunk that fits (R130, R144) -/

theorem not_overflows_of_fits {chunk : List Byte} {s : State} (h : Fits chunk s) : overflows s chunk = false := by
  rw [← Bool.not_eq_true, overflows_iff]
  rintro ⟨cap, hcap, exceeded⟩
  exact Nat.not_le.mpr exceeded (h cap hcap)

/-- FEED of a chunk that fits is the scan of the buffer with the chunk appended. -/
theorem exec_feed_of_scanAll {chunk buf : List Byte} {frames : List Frame} {s : State} (fits : Fits chunk s)
    (scanned : scanAll (s.buf ++ chunk) = (frames, buf)) :
    exec (.feed chunk) s = .next ((s.withBuf buf).withResult (.frames frames)) := by
  have fed := execFeed_of_not_overflows (not_overflows_of_fits fits)
  rwa [scanned] at fed

/-- A buffer no longer than one with a chunk that fits is within the capacity. -/
theorem Fits.nil_withBuf {chunk buf : List Byte} {s : State} (fits : Fits chunk s)
    (shorter : buf.length ≤ (s.buf ++ chunk).length) : Fits [] (s.withBuf buf) := fun cap hcap =>
  shorter.trans ((List.length_append ..).trans_le (fits cap hcap))

/-- FEED of no bytes scans the buffer as it stands. -/
theorem exec_feed_nil {buf : List Byte} {s : State} (fits : Fits [] (s.withBuf buf)) :
    exec (.feed []) (s.withBuf buf) =
      .next ((s.withBuf (scanAll buf).2).withResult (.frames (scanAll buf).1)) :=
  exec_feed_of_scanAll fits (congrArg scanAll (List.append_nil buf))

/-- Where the next outcome is a drop, FEED does what it does with the first byte gone (R138). -/
theorem exec_feed_of_drops {chunk : List Byte} {s : State} (fits : Fits chunk s) {o : ScanOutcome} (drops : o.Drops)
    (h : ScanTest (s.buf ++ chunk) o) :
    exec (.feed chunk) s = exec (.feed []) (s.withBuf ((s.buf ++ chunk).drop 1)) := by
  rw [exec_feed_nil (fits.nil_withBuf (List.drop_suffix 1 _).length_le)]
  exact exec_feed_of_scanAll fits (scanAll_of_drops drops h)

end Sys2Proof.Machine

open Sys2Proof Sys2Proof.Machine

/-- Settles O36: both conditions are halts of the scan, which return the buffer they are given. -/
theorem haltKeepsEveryByte : Obligations.HaltKeepsEveryByte := fun _ _ fits halted =>
  exec_feed_of_scanAll fits (scanAll_of_halted halted)

/-- Settles O39: the first three conditions are tests of outcomes that drop; a right CRC makes the candidate the frame
its type and payload compose to, which the scan emits. -/
theorem feedTakesOneScanStep : Obligations.FeedTakesOneScanStep := by
  intro chunk s fits
  refine ⟨fun long nonsync => ?nonsync, fun long atSync outOfRange => ?range,
    fun type crc payload rest payloadFits buffer => ⟨fun wrong => ?badcrc, ?emit⟩⟩
  case nonsync => exact exec_feed_of_drops fits (o := .nonsync) trivial ⟨long, nonsync⟩
  case range =>
    obtain above | below := outOfRange
    · exact exec_feed_of_drops fits (o := .oversize) trivial ⟨long, atSync, above⟩
    · exact exec_feed_of_drops fits (o := .undersize) trivial ⟨long, atSync, below⟩
  case badcrc =>
    exact exec_feed_of_drops fits (o := .badcrc) trivial ⟨type, payload, crc, rest, payloadFits, wrong, buffer⟩
  case emit =>
    rintro rfl
    have shorter : rest.length ≤ (s.buf ++ chunk).length := buffer ▸ (List.suffix_append _ rest).length_le
    refine ⟨_, _, exec_feed_nil (fits.nil_withBuf shorter), rfl, ?_⟩
    exact exec_feed_of_scanAll fits ((congrArg scanAll buffer).trans (scanAll_composeFrame_append payloadFits rest))

/-- Settles O33: an encoded frame composes a type and 22 packed bytes, so the scan emits it and leaves nothing; UNPACK
of its payload is R115. -/
theorem decoderReturnsEncodedFrame : Obligations.DecoderReturnsEncodedFrame := by
  intro channels s t frame count empty encoded returned fits
  rw [exec_encode_of_length count] at encoded
  obtain rfl := Host.Outcome.next.inj encoded
  obtain rfl := Result.frame.inj (Option.some.inj returned)
  refine ⟨?emitted, unpack_slice_encodeFrame count⟩
  have payloadFits : (pack (channels.map channelOfInt)).length ≤ 62 :=
    (pack_channelOfInt_length count).trans_le (by decide)
  refine exec_feed_of_scanAll fits ?_
  rw [State.withResult_buf, empty, List.nil_append]
  exact scanAll_composeFrame payloadFits
end

section
/-! PROOF. A single-bit error (spec/40_checksum.md R103 (d), spec/42_frame_decoder.md R137): the CRC step loses nothing
of its operands, so that no change of one byte keeps the checksum of type, payload and CRC at zero. -/

namespace Sys2Proof.Machine

/-! ### The CRC loses nothing (R100, R103) -/

/-- A shift takes only zero to zero: a top bit shifted out comes back as the polynomial's lowest bit. -/
theorem eq_zero_of_crcShift_eq_zero : ∀ a : Byte, crcShift a = 0 → a = 0 := by
  decide +kernel

theorem crcShift_injective : Function.Injective crcShift := fun a b h => by
  rw [← BitVec.xor_eq_zero_iff, ← crcShift_xor] at h
  exact BitVec.xor_eq_zero_iff.mp (eq_zero_of_crcShift_eq_zero _ h)

theorem crcShifts_injective (n : Nat) : Function.Injective (crcShifts n) := by
  induction n with
  | zero => exact Function.injective_id
  | succ n ih => exact ih.comp crcShift_injective

theorem crc8Step_right_injective (acc : Byte) : Function.Injective (crc8Step acc) := fun _ _ h =>
  (BitVec.xor_right_inj acc).mp (crcShifts_injective 8 h)

theorem crc8Step_left_injective (b : Byte) : Function.Injective (crc8Step · b) := fun _ _ h =>
  (BitVec.xor_left_inj b).mp (crcShifts_injective 8 h)

/-- Different accumulators stay different over any bytes. -/
theorem foldl_crc8Step_injective (bytes : List Byte) : Function.Injective (bytes.foldl crc8Step) := by
  induction bytes with
  | nil => exact Function.injective_id
  | cons b bytes ih => exact ih.comp (crc8Step_left_injective b)

/-- One changed byte changes the checksum. -/
theorem checksum_set_ne {bytes : List Byte} {i : Nat} {b : Byte} (inside : i < bytes.length)
    (changed : b ≠ byteAt bytes i) : checksum (bytes.set i b) ≠ checksum bytes := by
  have cut : bytes = bytes.take i ++ byteAt bytes i :: bytes.drop (i + 1) := by
    rw [byteAt_of_lt inside, List.cons_getElem_drop_succ, List.take_append_drop]
  intro same
  rw [List.set_eq_take_append_cons_drop, if_pos inside, checksum_append] at same
  conv_rhs at same => rw [cut, checksum_append]
  exact changed (crc8Step_right_injective _ (foldl_crc8Step_injective _ same))

/-- A sequence and one byte more have checksum zero exactly where that byte is the checksum (R103 (b)). -/
theorem checksum_concat_eq_zero_iff (bytes : List Byte) (crc : Byte) :
    checksum (bytes ++ [crc]) = 0x00 ↔ crc = checksum bytes := by
  have residue : crc8Step (checksum bytes) (checksum bytes) = 0x00 := by
    rw [crc8Step_xor, BitVec.xor_self]
    rfl
  rw [checksum_concat, ← residue]
  exact (crc8Step_right_injective _).eq_iff

/-! ### A candidate and its CRC (R65, R131) -/

/-- The bytes behind sync and length have checksum zero exactly where the CRC byte is right. -/
theorem checksum_drop_candidateOf_eq_zero_iff (type crc : Byte) (payload : List Byte) :
    checksum ((candidateOf type payload crc).drop 2) = 0x00 ↔ crc = checksum (type :: payload) :=
  checksum_concat_eq_zero_iff (type :: payload) crc

/-- A candidate that fills the whole sequence is taken apart without a rest. -/
theorem HoldsCandidate.eq_candidateOf {f : Frame} (h : HoldsCandidate f) (length : f.length = lengthByte f + 2) :
    ∃ type payload crc, payload.length ≤ 62 ∧ f = candidateOf type payload crc := by
  obtain ⟨type, payload, crc, rest, fits, rfl⟩ := h.eq_candidateOf_append
  rw [lengthByte_candidateOf_append fits, List.length_append, candidateOf_length, Nat.add_eq_left] at length
  obtain rfl := List.eq_nil_of_length_eq_zero length
  exact ⟨type, payload, crc, fits, List.append_nil _⟩

theorem holdsCandidate_of_frameValid {f : Frame} (h : FrameValid f) : HoldsCandidate f := by
  obtain ⟨-, atSync, atLeast, atMost, length, -⟩ := h
  exact ⟨atSync, atLeast, atMost, length.ge⟩

/-- A candidate is a valid frame exactly where its CRC byte is right. -/
theorem frameValid_candidateOf_iff {type crc : Byte} {payload : List Byte} (h : payload.length ≤ 62) :
    FrameValid (candidateOf type payload crc) ↔ crc = checksum (type :: payload) := by
  constructor
  · rintro ⟨-, -, -, -, -, crcRight⟩
    have length := lengthByte_candidateOf_append (type := type) (crc := crc) h []
    rw [List.append_nil] at length
    rwa [length, body_candidateOf h, byteAt_candidateOf_crc] at crcRight
  · rintro rfl
    exact frameValid_composeFrame h

theorem length_of_frameValid {f : Frame} (h : FrameValid f) : f.length = lengthByte f + 2 := by
  obtain ⟨-, -, -, -, length, -⟩ := h
  exact length

/-- Behind sync and length a valid frame has checksum zero. -/
theorem checksum_drop_of_frameValid {f : Frame} (h : FrameValid f) : checksum (f.drop 2) = 0x00 := by
  obtain ⟨type, payload, crc, fits, rfl⟩ := (holdsCandidate_of_frameValid h).eq_candidateOf (length_of_frameValid h)
  exact (checksum_drop_candidateOf_eq_zero_iff type crc payload).mpr ((frameValid_candidateOf_iff fits).mp h)

/-! ### A changed byte in body or CRC (R137) -/

theorem byteAt_set_of_ne {bytes : List Byte} {i j : Nat} (h : i ≠ j) (b : Byte) :
    byteAt (bytes.set i b) j = byteAt bytes j := by
  simp [byteAt, List.getElem?_set_ne h]

theorem byteAt_drop (bytes : List Byte) (n i : Nat) : byteAt (bytes.drop n) i = byteAt bytes (n + i) := by
  simp [byteAt]

/-- A byte behind the length byte does not move the candidate's end. -/
theorem lengthByte_set {k : Nat} (behindLength : 2 ≤ k) (f : Frame) (b : Byte) :
    lengthByte (f.set k b) = lengthByte f :=
  congrArg BitVec.toNat (byteAt_set_of_ne (by omega) b)

theorem HoldsCandidate.set {f : Frame} (h : HoldsCandidate f) {k : Nat} (behindLength : 2 ≤ k) (b : Byte) :
    HoldsCandidate (f.set k b) := by
  obtain ⟨atSync, atLeast, atMost, whole⟩ := h
  have sameLength := lengthByte_set behindLength f b
  refine ⟨?_, by rwa [sameLength], by rwa [sameLength], by rwa [sameLength, List.length_set]⟩
  rwa [byteAt_set_of_ne (by omega)]

/-- A valid frame with one byte of body or CRC changed is a candidate whose CRC is wrong. -/
theorem exists_candidateOf_set {f : Frame} (valid : FrameValid f) {k : Nat} (behindLength : 2 ≤ k)
    (inside : k < f.length) {b : Byte} (changed : b ≠ byteAt f k) :
    ∃ type payload crc, payload.length ≤ 62 ∧ crc ≠ checksum (type :: payload) ∧
      f.set k b = candidateOf type payload crc := by
  have length : (f.set k b).length = lengthByte (f.set k b) + 2 := by
    rw [List.length_set, lengthByte_set behindLength, length_of_frameValid valid]
  obtain ⟨type, payload, crc, fits, candidate⟩ :=
    ((holdsCandidate_of_frameValid valid).set behindLength b).eq_candidateOf length
  refine ⟨type, payload, crc, fits, fun right => ?_, candidate⟩
  have residue := (checksum_drop_candidateOf_eq_zero_iff type crc payload).mpr right
  rw [← candidate, List.drop_set, if_neg (Nat.not_lt.mpr behindLength)] at residue
  refine checksum_set_ne ?_ ?_ (residue.trans (checksum_drop_of_frameValid valid).symm)
  · rw [List.length_drop]
    omega
  · rwa [byteAt_drop, Nat.add_sub_cancel' behindLength]

/-- Flipping a bit changes the byte. -/
theorem xor_shiftLeft_one_ne (b : Byte) {bit : Nat} (h : bit < 8) : b ^^^ (1#8 <<< bit) ≠ b := by
  intro same
  have bitSame := congrArg (·.getLsbD bit) same
  simp [h] at bitSame

/-- PARSE refuses every frame that is not valid (R160). -/
theorem exec_parse_of_not_frameValid {f : Frame} (h : ¬ FrameValid f) (s : State) :
    exec (.parse f) s = .refused .invalidFrame := by
  change execParse f s = _
  rw [execParse, parseFrame, if_neg h]
  rfl

end Sys2Proof.Machine

open Sys2Proof Sys2Proof.Machine

/-- Settles O19: the flipped bit leaves a candidate whose CRC is wrong, which is BADCRC's test and no valid frame. -/
theorem singleBitErrorIsRejected : Obligations.SingleBitErrorIsRejected := by
  intro frame rest k bit s valid behindLength inside inByte corrupted
  obtain ⟨type, payload, crc, fits, wrong, candidate⟩ :=
    exists_candidateOf_set valid behindLength inside (xor_shiftLeft_one_ne (byteAt frame k) inByte)
  rw [show corrupted = candidateOf type payload crc from candidate]
  refine ⟨?decoder, ?parser⟩
  case decoder => exact scanOutcome_of_scanTest (o := .badcrc) ⟨type, payload, crc, rest, fits, wrong, rfl⟩
  case parser => exact exec_parse_of_not_frameValid (mt (frameValid_candidateOf_iff fits).mp wrong) s
end

section
/-! PROOF. The telemetry parser (spec/43_telemetry_parser.md R160 to R169): what each type's payload commits, read off
the frame's own bytes, the PARSEs inside RECEIVE, and READ. -/

namespace Sys2Proof.Machine

/-! ### The payload's bytes in the frame (R60) -/

theorem byteAt_slice {bytes : List Byte} {i j k : Nat} (inside : k < j + 1 - i) :
    byteAt (slice bytes i j) k = byteAt bytes (i + k) := by
  simp [slice, byteAt, inside]

/-- Payload byte k is frame byte k + 3. -/
theorem byteAt_payloadOf {frame : Frame} {k : Nat} (inside : k < lengthByte frame - 2) :
    byteAt (payloadOf frame) k = byteAt frame (k + 3) := by
  rw [payloadOf, byteAt_slice (by omega), Nat.add_comm]

theorem payloadOf_length {frame : Frame} (valid : FrameValid frame) :
    (payloadOf frame).length = lengthByte frame - 2 := by
  rw [payloadOf, slice, List.length_take, List.length_drop, length_of_frameValid valid]
  omega

/-! ### Little-endian values as the concatenation of their bytes (R11, R42) -/

theorem le_one (bytes : List Byte) (off : Nat) : le bytes off 1 = (byteAt bytes off).toNat := rfl

/-- The first byte stands in the low 8 bits, below the value of those behind it. -/
theorem ofNat_le_succ (bytes : List Byte) (off n w : Nat) :
    BitVec.ofNat (w + 8) (le bytes off (n + 1)) = BitVec.ofNat w (le bytes (off + 1) n) ++ byteAt bytes off := by
  have low := (byteAt bytes off).isLt
  have high : ((byteAt bytes off).toNat + 256 * le bytes (off + 1) n) / 2 ^ 8 = le bytes (off + 1) n := by omega
  apply BitVec.eq_of_toNat_eq
  rw [BitVec.toNat_append, ← Nat.shiftLeft_add_eq_or_of_lt low, Nat.shiftLeft_eq, BitVec.toNat_ofNat,
    BitVec.toNat_ofNat, le, Nat.pow_add, Nat.mul_comm (2 ^ w), Nat.mod_mul, high]
  omega

theorem ofNat_le_two (bytes : List Byte) (off : Nat) :
    BitVec.ofNat 16 (le bytes off 2) = byteAt bytes (off + 1) ++ byteAt bytes off := by
  rw [ofNat_le_succ bytes off 1 8, le_one, BitVec.ofNat_toNat, BitVec.setWidth_eq]

theorem ofNat_le_three (bytes : List Byte) (off : Nat) :
    BitVec.ofNat 24 (le bytes off 3) = byteAt bytes (off + 2) ++ byteAt bytes (off + 1) ++ byteAt bytes off := by
  rw [ofNat_le_succ bytes off 2 16, ofNat_le_two]

theorem ofNat_le_four (bytes : List Byte) (off : Nat) :
    BitVec.ofNat 32 (le bytes off 4) =
      byteAt bytes (off + 3) ++ byteAt bytes (off + 2) ++ byteAt bytes (off + 1) ++ byteAt bytes off := by
  rw [ofNat_le_succ bytes off 3 24, ofNat_le_three]

/-- A byte read as a signed value is its two's complement. -/
theorem sext_toNat (b : Byte) : sext 8 b.toNat = b.toInt := by
  rw [sext, BitVec.ofNat_toNat, BitVec.setWidth_eq]

/-! ### What each type commits (R161 to R165) -/

theorem commitPayload_tLs (p : List Byte) (snap : Snapshot) :
    commitPayload tLs p snap = if 10 ≤ p.length then commitLinkStatistics p snap else snap := rfl

theorem commitPayload_tBat (p : List Byte) (snap : Snapshot) :
    commitPayload tBat p snap = if 7 ≤ p.length then commitBattery p snap else snap := rfl

theorem commitPayload_tGps (p : List Byte) (snap : Snapshot) :
    commitPayload tGps p snap = if 15 ≤ p.length then commitGps p snap else snap := rfl

/-- A type without a layout commits nothing (R164). -/
theorem commitPayload_of_ne {type : Byte} (ls : type ≠ tLs) (bat : type ≠ tBat) (gps : type ≠ tGps) (p : List Byte)
    (snap : Snapshot) : commitPayload type p snap = snap := by
  rw [commitPayload, if_neg ls, if_neg bat, if_neg gps]

/-- The battery layout (R71) by bytes of the payload. -/
theorem commitBattery_eq (p : List Byte) (snap : Snapshot) :
    commitBattery p snap = { snap with
      bat_voltage := some (byteAt p 1 ++ byteAt p 0)
      bat_current := some (byteAt p 3 ++ byteAt p 2)
      bat_capacity := some (byteAt p 5 ++ byteAt p 4)
      bat_remaining := some (byteAt p 6) } := by
  simp only [commitBattery, ofNat_le_two, Nat.reduceAdd]

/-- The GPS layout (R72) by bytes of the payload. -/
theorem commitGps_eq (p : List Byte) (snap : Snapshot) :
    commitGps p snap = { snap with
      gps_latitude := some (byteAt p 3 ++ byteAt p 2 ++ byteAt p 1 ++ byteAt p 0).toInt
      gps_longitude := some (byteAt p 7 ++ byteAt p 6 ++ byteAt p 5 ++ byteAt p 4).toInt
      gps_ground_speed := some (byteAt p 9 ++ byteAt p 8)
      gps_heading := some (byteAt p 11 ++ byteAt p 10)
      gps_altitude := some (byteAt p 14 ++ byteAt p 13 ++ byteAt p 12).toInt } := by
  simp only [commitGps, sext, ofNat_le_two, ofNat_le_three, ofNat_le_four, Nat.reduceAdd]

/-! ### PARSE of a valid frame (R160) -/

theorem parseFrame_of_frameValid {frame : Frame} (valid : FrameValid frame) (snap : Snapshot) :
    parseFrame frame snap = some (commitPayload (typeByte frame) (payloadOf frame) snap) :=
  if_pos valid

/-- PARSE of a valid frame puts what the frame commits in the snapshot's place: the converse of `execParse_next`. -/
theorem exec_parse_of_commitPayload {frame : Frame} {s : State} {snap : Snapshot} (valid : FrameValid frame)
    (commits : commitPayload (typeByte frame) (payloadOf frame) s.snap = snap) :
    exec (.parse frame) s = .next { s with snap := snap, result := some .done } := by
  change execParse frame s = _
  rw [execParse, parseFrame_of_frameValid valid, commits]
  rfl

/-! ### The PARSEs inside RECEIVE (R168) -/

/-- The candidate SCAN_STEP emits is a valid frame (R65, R136). -/
theorem frameValid_candidate_of_emit {b : List Byte} (h : scanOutcome b = .emit) : FrameValid (candidate b) := by
  obtain ⟨type, payload, rest, fits, rfl⟩ := (scanOutcome_eq_iff b .emit).mp h
  rw [← candidateOf_checksum, candidate_candidateOf_append fits, candidateOf_checksum]
  exact frameValid_composeFrame fits

theorem frameValid_of_mem_scan (fuel : Nat) (b : List Byte) : ∀ frame ∈ (scan fuel b).1, FrameValid frame := by
  induction fuel generalizing b with
  | zero => exact List.forall_mem_nil _
  | succ fuel ih =>
    rw [scan_succ]
    cases outcome : scanOutcome b with
    | haltShort | haltWait => exact List.forall_mem_nil _
    | nonsync | oversize | undersize | badcrc => exact ih _
    | emit => exact List.forall_mem_cons.mpr ⟨frameValid_candidate_of_emit outcome, ih _⟩

/-- PARSE of valid frames in turn is never refused, and leaves the snapshot RECEIVE computes from them. -/
theorem exists_parseChain {frames : List Frame} (valid : ∀ frame ∈ frames, FrameValid frame) (s : State) :
    ∃ parsed, parseChain frames s = some parsed ∧ parseFrames frames s.snap = some parsed.snap := by
  induction frames generalizing s with
  | nil => exact ⟨s, rfl, rfl⟩
  | cons frame frames ih =>
    obtain ⟨head, tail⟩ := List.forall_mem_cons.mp valid
    obtain ⟨parsed, chain, snapshot⟩ :=
      ih tail { s with snap := commitPayload (typeByte frame) (payloadOf frame) s.snap, result := some .done }
    refine ⟨parsed, ?_, ?_⟩
    · rw [parseChain, exec_parse_of_commitPayload head rfl]
      exact chain
    · rw [parseFrames, parseFrame_of_frameValid head]
      exact snapshot

/-- RECEIVE of a chunk that fits, where the emitted frames parse: the converse of `execReceive_next`. -/
theorem exec_receive_of_parseFrames {chunk : List Byte} {s : State} {snap : Snapshot} (fits : Fits chunk s)
    (parsed : parseFrames (scanAll (s.buf ++ chunk)).1 s.snap = some snap) :
    exec (.receive chunk) s = .next (((s.withBuf (scanAll (s.buf ++ chunk)).2).withSnap snap).withResult
      (.frames (scanAll (s.buf ++ chunk)).1)) := by
  change execReceive chunk s = _
  simp [execReceive, not_overflows_of_fits fits, bufAppend, parsed, returnResult]

/-- FEED is refused only for an overflow (R144), which refuses RECEIVE alike. -/
theorem exec_receive_of_feed_refused {chunk : List Byte} {s : State} {r : Refusal}
    (h : exec (.feed chunk) s = .refused r) : exec (.receive chunk) s = .refused r := by
  change execFeed chunk s = _ at h
  cases overflow : overflows s chunk with
  | false =>
    rw [execFeed_of_not_overflows overflow] at h
    cases h
  | true =>
    rw [execFeed, if_pos overflow] at h
    exact (if_pos overflow).trans h

/-! ### The pairs of the snapshot (R169) -/

theorem mem_allFields (f : Field) : f ∈ allFields := by
  cases f <;> decide

theorem mem_pairs_iff (snap : Snapshot) (f : Field) (v : Option Int) : (f, v) ∈ snap.pairs ↔ v = snap.read f := by
  simp [Snapshot.pairs, mem_allFields, eq_comm]

end Sys2Proof.Machine

open Sys2Proof Sys2Proof.Machine

/-- Settles O41: the type and length select the link-statistics layout, and each of its ten payload bytes stands three
further on in the frame. -/
theorem parseCommitsLinkStatistics : Obligations.ParseCommitsLinkStatistics := by
  intro frame s valid (type : typeByte frame = tLs) (enough : 10 ≤ lengthByte frame - 2)
  refine exec_parse_of_commitPayload valid ?_
  rw [type, commitPayload_tLs, payloadOf_length valid, if_pos enough]
  simp (disch := omega) only [commitLinkStatistics, sext_toNat, byteAt_payloadOf, Nat.reduceAdd]

/-- Settles O42: the type and length select the battery layout, whose 16-bit values are two bytes, the first low. -/
theorem parseCommitsBattery : Obligations.ParseCommitsBattery := by
  intro frame s valid (type : typeByte frame = tBat) (enough : 7 ≤ lengthByte frame - 2)
  refine exec_parse_of_commitPayload valid ?_
  rw [type, commitPayload_tBat, payloadOf_length valid, if_pos enough, commitBattery_eq]
  simp (disch := omega) only [byteAt_payloadOf, Nat.reduceAdd]

/-- Settles O43: the type and length select the GPS layout, whose values are their bytes, the first lowest. -/
theorem parseCommitsGps : Obligations.ParseCommitsGps := by
  intro frame s valid (type : typeByte frame = tGps) (enough : 15 ≤ lengthByte frame - 2)
  refine exec_parse_of_commitPayload valid ?_
  rw [type, commitPayload_tGps, payloadOf_length valid, if_pos enough, commitGps_eq]
  simp (disch := omega) only [byteAt_payloadOf, Nat.reduceAdd]

/-- Settles O44: a type without a layout commits nothing. -/
theorem parseIgnoresOtherTypes : Obligations.ParseIgnoresOtherTypes := fun _ _ valid ls bat gps =>
  exec_parse_of_commitPayload valid (commitPayload_of_ne ls bat gps _ _)

/-- Settles O45: each layout's length test fails, so that nothing is committed. -/
theorem parseIgnoresShortPayloads : Obligations.ParseIgnoresShortPayloads := by
  intro frame s valid short
  refine exec_parse_of_commitPayload (snap := s.snap) valid ?_
  obtain ⟨type, short⟩ | ⟨type, short⟩ | ⟨type, short⟩ := short
  · rw [typeByte, type, commitPayload_tLs, payloadOf_length valid]
    exact if_neg (Nat.not_le.mpr short)
  · rw [typeByte, type, commitPayload_tBat, payloadOf_length valid]
    exact if_neg (Nat.not_le.mpr short)
  · rw [typeByte, type, commitPayload_tGps, payloadOf_length valid]
    exact if_neg (Nat.not_le.mpr short)

/-- Settles O50: the scan emits valid frames only, so that PARSE refuses none of them, and FEED's state has the
snapshot RECEIVE starts them from. -/
theorem receiveIsFeedThenParse : Obligations.ReceiveIsFeedThenParse := by
  intro chunk s
  refine ⟨fun fits => ?_, fun _ => exec_receive_of_feed_refused⟩
  have fed := exec_feed_of_scanAll fits (rfl : scanAll (s.buf ++ chunk) = _)
  obtain ⟨parsed, chain, snapshot⟩ := exists_parseChain (frameValid_of_mem_scan _ (s.buf ++ chunk))
    ((s.withBuf (scanAll (s.buf ++ chunk)).2).withResult (.frames (scanAll (s.buf ++ chunk)).1))
  exact ⟨_, _, parsed, fed, rfl, chain, exec_receive_of_parseFrames fits snapshot⟩

/-- Settles O51: READ writes the result port alone, from the snapshot it leaves as it is. -/
theorem readReturnsWholeSnapshot : Obligations.ReadReturnsWholeSnapshot := fun s =>
  ⟨s.withResult (.snapshot s.snap), rfl, rfl, rfl, mem_pairs_iff s.snap, rfl⟩
end

section
/-! PROOF. The port word (spec/30_encoding.md R64, R66, R75): what an operand must be to decode, then each code and type
byte read and written. -/

namespace Sys2Proof

/-! ### Elements and operands of bytes (R10) -/

/-- An element reads as the byte it is the value of, and as no other. -/
theorem byteOfInt_eq_some_iff (v : Int) (b : Byte) : byteOfInt v = some b ↔ v = b.toNat := by
  unfold byteOfInt
  constructor
  · intro h
    split_ifs at h with inByte
    obtain rfl := Option.some.inj h
    rw [BitVec.toNat_ofNat]
    omega
  · rintro rfl
    have below := b.isLt
    rw [if_pos (by omega), Int.toNat_natCast, BitVec.ofNat_toNat, BitVec.setWidth_eq]

theorem byteOfInt_eq_none_iff (v : Int) : byteOfInt v = none ↔ v < 0 ∨ 255 < v := by
  unfold byteOfInt
  split_ifs with inByte
  · exact iff_of_false nofun (by omega)
  · exact iff_of_true rfl (by omega)

theorem bytesOfOperand_cons (v : Int) (vs : List Int) :
    bytesOfOperand (v :: vs) = (byteOfInt v).bind fun b => (bytesOfOperand vs).map (b :: ·) := by
  rw [bytesOfOperand]
  cases byteOfInt v <;> cases bytesOfOperand vs <;> rfl

/-- An operand reads as the byte sequence it was written from, and as no other. -/
theorem bytesOfOperand_eq_some_iff (operand : List Int) (bytes : List Byte) :
    bytesOfOperand operand = some bytes ↔ operand = operandOfBytes bytes := by
  induction operand generalizing bytes with
  | nil => cases bytes <;> simp [bytesOfOperand, operandOfBytes]
  | cons v vs ih =>
    rw [bytesOfOperand_cons]
    cases bytes with
    | nil => simp [operandOfBytes, Option.bind_eq_some_iff]
    | cons b bs =>
      simp only [Option.bind_eq_some_iff, Option.map_eq_some_iff, ih, byteOfInt_eq_some_iff, List.cons.injEq,
        operandOfBytes, List.map_cons]
      constructor
      · rintro ⟨_, hv, _, hvs, rfl, rfl⟩
        exact ⟨hv, hvs⟩
      · rintro ⟨hv, hvs⟩
        exact ⟨b, hv, bs, hvs, rfl, rfl⟩

theorem bytesOfOperand_eq_none_iff (operand : List Int) :
    bytesOfOperand operand = none ↔ ∃ v ∈ operand, v < 0 ∨ 255 < v := by
  induction operand with
  | nil => simp [bytesOfOperand]
  | cons v vs ih =>
    rw [bytesOfOperand_cons, List.exists_mem_cons_iff, ← ih, ← byteOfInt_eq_none_iff]
    cases byteOfInt v <;> simp

/-! ### The three kinds of operand (R75) -/

@[simp] theorem withBytes_operandOfBytes (f : List Byte → Instr) (bytes : List Byte) :
    withBytes f (operandOfBytes bytes) = .ok (f bytes) := by
  rw [withBytes, (bytesOfOperand_eq_some_iff _ _).mpr rfl]

theorem withBytes_eq_ok_iff (f : List Byte → Instr) (operand : List Int) (i : Instr) :
    withBytes f operand = .ok i ↔ ∃ bytes, operand = operandOfBytes bytes ∧ f bytes = i := by
  simp only [← bytesOfOperand_eq_some_iff]
  unfold withBytes
  cases bytesOfOperand operand <;> simp

theorem withBytes_eq_error_iff (f : List Byte → Instr) (operand : List Int) (e : DecodeError) :
    withBytes f operand = .error e ↔ e = .operandNotByte ∧ ∃ v ∈ operand, v < 0 ∨ 255 < v := by
  rw [← bytesOfOperand_eq_none_iff]
  unfold withBytes
  cases bytesOfOperand operand <;> simp [eq_comm]

theorem withNothing_eq_ok_iff (j : Instr) (operand : List Int) (i : Instr) :
    withNothing j operand = .ok i ↔ operand = [] ∧ j = i := by
  cases operand <;> simp [withNothing]

theorem withNothing_eq_error_iff (j : Instr) (operand : List Int) (e : DecodeError) :
    withNothing j operand = .error e ↔ e = .operandNotEmpty ∧ operand ≠ [] := by
  cases operand <;> simp [withNothing, eq_comm]

/-- An operation on bytes whose encodings carry this code decodes only from the word its encoding is. -/
theorem encode_of_withBytes {f : List Byte → Instr} {code : CommandCode} {operand : List Int} {i : Instr}
    (encodes : ∀ bytes, WellFormed (f bytes) = true ∧ encode (f bytes) = .operation code (operandOfBytes bytes))
    (h : withBytes f operand = .ok i) : WellFormed i = true ∧ encode i = .operation code operand := by
  obtain ⟨bytes, rfl, rfl⟩ := (withBytes_eq_ok_iff f operand i).mp h
  exact encodes bytes

/-- An operation without operand likewise. -/
theorem encode_of_withNothing {j : Instr} {code : CommandCode} {operand : List Int} {i : Instr}
    (encodes : WellFormed j = true ∧ encode j = .operation code [])
    (h : withNothing j operand = .ok i) : WellFormed i = true ∧ encode i = .operation code operand := by
  obtain ⟨rfl, rfl⟩ := (withNothing_eq_ok_iff j operand i).mp h
  exact encodes

/-- The eight command codes of R75. -/
theorem commandCode_cases : ∀ code : CommandCode,
    code = 0b000 ∨ code = 0b001 ∨ code = 0b010 ∨ code = 0b011 ∨ code = 0b100 ∨ code = 0b101 ∨ code = 0b110 ∨
      code = 0b111 := by
  decide

/-- An operation decodes only from the word its encoding is, and it is well formed. -/
theorem decodeOperation_eq_ok {code : CommandCode} {operand : List Int} {i : Instr}
    (h : decodeOperation code operand = .ok i) : WellFormed i = true ∧ encode i = .operation code operand := by
  obtain rfl | rfl | rfl | rfl | rfl | rfl | rfl | rfl := commandCode_cases code
  · exact encode_of_withNothing ⟨rfl, rfl⟩ h
  · exact encode_of_withBytes (fun _ => ⟨rfl, rfl⟩) h
  · obtain rfl := Except.ok.inj h
    exact ⟨rfl, rfl⟩
  · exact encode_of_withBytes (fun _ => ⟨rfl, rfl⟩) h
  · exact encode_of_withBytes (fun _ => ⟨rfl, rfl⟩) h
  · exact encode_of_withBytes (fun _ => ⟨rfl, rfl⟩) h
  · exact encode_of_withNothing ⟨rfl, rfl⟩ h
  · obtain rfl := Except.ok.inj h
    exact ⟨rfl, rfl⟩

/-! ### The packet types (R66) -/

theorem payloadFits_iff (payload : List Byte) : payloadFits payload = true ↔ payload.length ≤ 62 :=
  decide_eq_true_iff

theorem isOtherType_iff (type : Byte) :
    isOtherType type = true ↔
      type ≠ Machine.tLs ∧ type ≠ Machine.tBat ∧ type ≠ Machine.tGps ∧ type ≠ Machine.tRc := by
  simp only [isOtherType, Bool.and_eq_true, bne_iff_ne, and_assoc]

/-- A payload that fits decodes to the row of its type. -/
theorem decodePacketType_of_fits {payload : List Byte} (h : payloadFits payload = true) (type : Byte) :
    decodePacketType type payload =
      .ok (if type = Machine.tLs then .typeLinkStatistics payload
        else if type = Machine.tBat then .typeBatterySensor payload
        else if type = Machine.tGps then .typeGps payload
        else if type = Machine.tRc then .typeRcChannelsPacked payload
        else .typeOther type payload) :=
  if_pos h

/-- A type without a row of its own decodes to TYPE_OTHER. -/
theorem decodePacketType_of_isOtherType {type : Byte} (other : isOtherType type = true) {payload : List Byte}
    (h : payloadFits payload = true) : decodePacketType type payload = .ok (.typeOther type payload) := by
  obtain ⟨ls, bat, gps, rc⟩ := (isOtherType_iff type).mp other
  rw [decodePacketType_of_fits h, if_neg ls, if_neg bat, if_neg gps, if_neg rc]

/-- A packet-type row decodes only from the word its encoding is, and it is well formed. -/
theorem decodePacketType_eq_ok {type : Byte} {payload : List Byte} {i : Instr}
    (h : decodePacketType type payload = .ok i) : WellFormed i = true ∧ encode i = .packetType type payload := by
  by_cases fits : payloadFits payload = true
  · rw [decodePacketType_of_fits fits] at h
    obtain rfl := Except.ok.inj h
    split_ifs with ls bat gps rc
    · exact ⟨fits, by rw [ls]; rfl⟩
    · exact ⟨fits, by rw [bat]; rfl⟩
    · exact ⟨fits, by rw [gps]; rfl⟩
    · exact ⟨fits, by rw [rc]; rfl⟩
    · exact ⟨Bool.and_eq_true_iff.mpr ⟨(isOtherType_iff type).mpr ⟨ls, bat, gps, rc⟩, fits⟩, rfl⟩
  · rw [decodePacketType, if_neg fits] at h
    cases h

theorem decodePacketType_eq_error_iff (type : Byte) (payload : List Byte) (e : DecodeError) :
    decodePacketType type payload = .error e ↔ e = .payloadTooLong ∧ 62 < payload.length := by
  rw [decodePacketType, ← Nat.not_le, ← payloadFits_iff]
  split_ifs with fits <;> simp [fits, eq_comm]

end Sys2Proof

open Sys2Proof Sys2Proof.Machine

/-- Settles O1: a byte operand reads back as written, and a payload that fits has the row of its type byte. -/
theorem decodeOfEncodeIsInstruction : Obligations.DecodeOfEncodeIsInstruction := by
  intro i wellFormed
  cases i with
  | reset | read | encode channels | reserved111 operand => rfl
  | checksum bytes | feed bytes | parse bytes | receive bytes => exact withBytes_operandOfBytes _ bytes
  | typeLinkStatistics payload | typeBatterySensor payload | typeGps payload | typeRcChannelsPacked payload =>
    exact decodePacketType_of_fits wellFormed _
  | typeOther type payload =>
    obtain ⟨other, fits⟩ := Bool.and_eq_true_iff.mp wellFormed
    exact decodePacketType_of_isOtherType other fits

/-- Settles O2: in each format a word that decodes is the encoding of what it decodes to. -/
theorem encodeOfDecodeIsPortWord : Obligations.EncodeOfDecodeIsPortWord := by
  intro w i h
  cases w with
  | operation code operand => exact decodeOperation_eq_ok h
  | packetType type payload => exact decodePacketType_eq_ok h

/-- Settles O4: the code decides which kind of operand is asked for, and each kind rejects for its one reason. -/
theorem decodeRejectsExactlyMalformedWords : Obligations.DecodeRejectsExactlyMalformedWords := by
  refine ⟨fun code operand e => ?_, decodePacketType_eq_error_iff⟩
  obtain rfl | rfl | rfl | rfl | rfl | rfl | rfl | rfl := commandCode_cases code
  · exact (withNothing_eq_error_iff .reset operand e).trans (by simp)
  · exact (withBytes_eq_error_iff .checksum operand e).trans (by simp)
  · simp [decode, decodeOperation]
  · exact (withBytes_eq_error_iff .feed operand e).trans (by simp)
  · exact (withBytes_eq_error_iff .parse operand e).trans (by simp)
  · exact (withBytes_eq_error_iff .receive operand e).trans (by simp)
  · exact (withNothing_eq_error_iff .read operand e).trans (by simp)
  · simp [decode, decodeOperation]

/-- Settles O3: each word is written out in the table's format and read by evaluating the decoder. -/
theorem tableWordsDecodeToTheirRows : Obligations.TableWordsDecodeToTheirRows :=
  ⟨rfl, rfl, rfl, rfl, rfl, rfl, rfl, rfl, rfl, rfl, rfl, rfl, rfl, rfl, rfl, rfl, rfl⟩

/-- Settles O52: the code decodes whatever stands in the operand, and its meaning refuses whatever the state. -/
theorem reservedCodeIsRefused : Obligations.ReservedCodeIsRefused := fun _ _ => ⟨rfl, rfl⟩
end

section
/-! PROOF. FEED against the relation of Safety.lean (spec/42_frame_decoder.md R131, R139, R140): the scan makes the moves
of `ScanMove` until it halts, so that what a buffer with more bytes behind it emits and leaves follows from the moves. -/

namespace Sys2Proof.Machine

/-! ### One move (R131) -/

/-- Each move removes at least one byte (R139). -/
theorem ScanMove.length_lt {b b' : List Byte} {fs : List Frame} (h : ScanMove b fs b') : b'.length < b.length := by
  cases h with
  | nonsync long | oversize long | undersize long =>
    rw [List.length_drop]
    omega
  | emit | badcrc =>
    simp only [List.length_append, List.length_cons]
    omega

/-- The scan makes a move and goes on from where it leads. -/
theorem scanAll_of_scanMove {b b' : List Byte} {fs : List Frame} (h : ScanMove b fs b') :
    scanAll b = (fs ++ (scanAll b').1, (scanAll b').2) := by
  cases h with
  | nonsync long nonsync => exact scanAll_of_drops (o := .nonsync) trivial ⟨long, nonsync⟩
  | oversize long atSync above => exact scanAll_of_drops (o := .oversize) trivial ⟨long, atSync, above⟩
  | undersize long atSync below => exact scanAll_of_drops (o := .undersize) trivial ⟨long, atSync, below⟩
  | @emit type crc payload rest payloadFits right =>
    subst right
    exact scanAll_composeFrame_append payloadFits b'
  | @badcrc type crc payload rest payloadFits wrong =>
    exact scanAll_of_drops (o := .badcrc) trivial ⟨type, payload, crc, rest, payloadFits, wrong, rfl⟩

/-- A buffer at which the scan has not halted has a move. -/
theorem scanHalted_or_scanMove (b : List Byte) : ScanHalted b ∨ ∃ fs b', ScanMove b fs b' := by
  have test := scanTest_scanOutcome b
  cases outcome : scanOutcome b <;> rw [outcome] at test
  case haltShort => exact .inl (.inl test)
  case haltWait => exact .inl (.inr test)
  case nonsync =>
    obtain ⟨long, nonsync⟩ := test
    exact .inr ⟨_, _, .nonsync long nonsync⟩
  case oversize =>
    obtain ⟨long, atSync, above⟩ := test
    exact .inr ⟨_, _, .oversize long atSync above⟩
  case undersize =>
    obtain ⟨long, atSync, below⟩ := test
    exact .inr ⟨_, _, .undersize long atSync below⟩
  case emit =>
    obtain ⟨type, payload, rest, payloadFits, rfl⟩ := test
    exact .inr ⟨_, _, .emit payloadFits rfl⟩
  case badcrc =>
    obtain ⟨type, payload, crc, rest, payloadFits, wrong, rfl⟩ := test
    exact .inr ⟨_, _, .badcrc payloadFits wrong⟩

/-- More bytes behind the buffer do not change the move: it depends on the candidate alone. -/
theorem ScanMove.append {b b' : List Byte} {fs : List Frame} (h : ScanMove b fs b') (more : List Byte) :
    ScanMove (b ++ more) fs (b' ++ more) := by
  have longer (long : 4 ≤ b.length) : 4 ≤ (b ++ more).length :=
    long.trans (List.sublist_append_left b more).length_le
  have kept {i : Nat} (long : 4 ≤ b.length) (hi : i < 4) : byteAt (b ++ more) i = byteAt b i :=
    byteAt_append_left (hi.trans_le long)
  have dropped (long : 4 ≤ b.length) : b.drop 1 ++ more = (b ++ more).drop 1 :=
    (List.drop_append_of_le_length (Nat.one_le_of_lt long)).symm
  cases h with
  | nonsync long nonsync =>
    rw [dropped long]
    exact .nonsync (longer long) (by rwa [kept long (by decide)])
  | oversize long atSync above =>
    rw [dropped long]
    exact .oversize (longer long) (by rwa [kept long (by decide)]) (by rwa [kept long (by decide)])
  | undersize long atSync below =>
    rw [dropped long]
    exact .undersize (longer long) (by rwa [kept long (by decide)]) (by rwa [kept long (by decide)])
  | emit payloadFits right =>
    rw [List.append_assoc _ b' more]
    exact .emit payloadFits right
  | @badcrc type crc payload rest payloadFits wrong =>
    rw [List.append_assoc _ rest more, List.append_assoc _ rest more]
    exact .badcrc payloadFits wrong

/-! ### Moves in a row, to the halt (R130, R139) -/

theorem scanAll_of_scanMoves {n : Nat} {b b' : List Byte} {fs : List Frame} (h : ScanMoves n b fs b') :
    scanAll b = (fs ++ (scanAll b').1, (scanAll b').2) := by
  induction h with
  | refl b => rfl
  | step move _ ih => rw [scanAll_of_scanMove move, ih, List.append_assoc]

theorem ScanMoves.append {n : Nat} {b b' : List Byte} {fs : List Frame} (h : ScanMoves n b fs b')
    (more : List Byte) : ScanMoves n (b ++ more) fs (b' ++ more) := by
  induction h with
  | refl b => exact .refl (b ++ more)
  | step move _ ih => exact .step (move.append more) ih

/-- The scan makes moves to a halt, no more of them than there are bytes. -/
theorem exists_scanMoves_scanAll (b : List Byte) :
    ∃ n, ScanMoves n b (scanAll b).1 (scanAll b).2 ∧ ScanHalted (scanAll b).2 ∧ n ≤ b.length := by
  induction hlen : b.length using Nat.strong_induction_on generalizing b with
  | _ len ih =>
    obtain halted | ⟨fs, b', move⟩ := scanHalted_or_scanMove b
    · rw [scanAll_of_halted halted]
      exact ⟨0, .refl b, halted, Nat.zero_le len⟩
    · have shorter := hlen ▸ move.length_lt
      obtain ⟨n, moves, halted, bound⟩ := ih b'.length shorter b' rfl
      rw [scanAll_of_scanMove move]
      exact ⟨n + 1, .step move moves, halted, bound.trans_lt shorter⟩

theorem scanHalted_scanAll (b : List Byte) : ScanHalted (scanAll b).2 :=
  have ⟨_, _, halted, _⟩ := exists_scanMoves_scanAll b
  halted

/-- The scan of a stream is the scan of its first part, and then of what that leaves with the second part behind
(R145). -/
theorem scanAll_append (b more : List Byte) :
    scanAll (b ++ more) = ((scanAll b).1 ++ (scanAll ((scanAll b).2 ++ more)).1,
      (scanAll ((scanAll b).2 ++ more)).2) :=
  have ⟨_, moves, _⟩ := exists_scanMoves_scanAll b
  scanAll_of_scanMoves (moves.append more)

/-! ### The quiescent buffer (R140) -/

theorem ScanHalted.length_le {b : List Byte} (h : ScanHalted b) : b.length ≤ 65 := by
  obtain short | ⟨-, -, atMost, -, incomplete⟩ := h
  · omega
  · omega

theorem ScanHalted.quiescent {b : List Byte} (h : ScanHalted b) : Quiescent b :=
  h.imp_left Nat.le_of_lt_succ

/-- The two quiescent cases exclude each other by the length. -/
theorem AwaitsFrame.not_short {b : List Byte} (h : AwaitsFrame b) : ¬ b.length ≤ 3 := by
  obtain ⟨-, -, -, long, -⟩ := h
  omega

/-! ### The capacity (R144) -/

theorem overflows_of_cap_lt {chunk : List Byte} {s : State} {cap : Nat} (hcap : s.bufCap = some cap)
    (exceeded : cap < s.buf.length + chunk.length) : overflows s chunk = true :=
  (overflows_iff s chunk).mpr ⟨cap, hcap, exceeded⟩

theorem fits_of_not_overflows {chunk : List Byte} {s : State} (h : overflows s chunk = false) : Fits chunk s :=
  fun _ hcap => Nat.le_of_not_lt fun exceeded => Bool.false_ne_true (h.symm.trans (overflows_of_cap_lt hcap exceeded))

/-- FEED of a chunk that fits completes. -/
theorem exec_feed_of_fits {chunk : List Byte} {s : State} (fits : Fits chunk s) :
    exec (.feed chunk) s =
      .next ((s.withBuf (scanAll (s.buf ++ chunk)).2).withResult (.frames (scanAll (s.buf ++ chunk)).1)) :=
  execFeed_of_not_overflows (not_overflows_of_fits fits)

theorem exec_feed_of_overflows {chunk : List Byte} {s : State} (h : overflows s chunk = true) :
    exec (.feed chunk) s = .refused .bufferOverflow :=
  if_pos h

theorem exec_receive_of_overflows {chunk : List Byte} {s : State} (h : overflows s chunk = true) :
    exec (.receive chunk) s = .refused .bufferOverflow :=
  exec_receive_of_feed_refused (exec_feed_of_overflows h)

/-! ### The frames emitted parse (R168) -/

/-- PARSE of valid frames in turn answers whatever the snapshot. -/
theorem exists_parseFrames {frames : List Frame} (valid : ∀ frame ∈ frames, FrameValid frame) (snap : Snapshot) :
    ∃ snap', parseFrames frames snap = some snap' :=
  have ⟨parsed, _, parses⟩ := exists_parseChain valid (State.reset.withSnap snap)
  ⟨parsed.snap, parses⟩

theorem exists_parseFrames_scanAll (b : List Byte) (snap : Snapshot) :
    ∃ snap', parseFrames (scanAll b).1 snap = some snap' :=
  exists_parseFrames (frameValid_of_mem_scan _ b) snap

theorem parseFrames_append (fs gs : List Frame) (snap : Snapshot) :
    parseFrames (fs ++ gs) snap = (parseFrames fs snap).bind (parseFrames gs) := by
  induction fs generalizing snap with
  | nil => rfl
  | cons frame fs ih =>
    rw [List.cons_append, parseFrames, parseFrames]
    cases parseFrame frame snap with
    | none => rfl
    | some mid => exact ih mid

/-- RECEIVE of a chunk that fits completes. -/
theorem exists_exec_receive {chunk : List Byte} {s : State} (fits : Fits chunk s) :
    ∃ t, exec (.receive chunk) s = .next t :=
  have ⟨_, parses⟩ := exists_parseFrames_scanAll (s.buf ++ chunk) s.snap
  ⟨_, exec_receive_of_parseFrames fits parses⟩

/-! ### A stream cut into chunks (R145) -/

/-- Where a chunk and what follows it fit, the chunk fits. -/
theorem Fits.left {chunk more : List Byte} {s : State} (fits : Fits (chunk ++ more) s) : Fits chunk s := by
  intro cap hcap
  have whole := fits cap hcap
  rw [List.length_append] at whole
  omega

/-- What follows fits behind what the scan of the chunk leaves. -/
theorem Fits.right {chunk more : List Byte} {s t : State} (fits : Fits (chunk ++ more) s)
    (hcap : t.bufCap = s.bufCap) (hbuf : t.buf = (scanAll (s.buf ++ chunk)).2) : Fits more t := by
  intro cap tcap
  have whole := fits cap (hcap ▸ tcap)
  have left := (scanAll_suffix (s.buf ++ chunk)).length_le
  rw [List.length_append] at whole left
  rw [hbuf]
  omega

/-- FEED of chunks in turn emits and leaves what one scan of the whole does. Of no chunk at all this holds where the
buffer is already scanned. -/
theorem exists_feedChunks {chunks : List (List Byte)} {s : State} (fits : Fits chunks.flatten s)
    (started : chunks ≠ [] ∨ ScanHalted s.buf) :
    ∃ t, feedChunks chunks s = some ((scanAll (s.buf ++ chunks.flatten)).1, t) ∧
      t.buf = (scanAll (s.buf ++ chunks.flatten)).2 ∧ t.snap = s.snap := by
  induction chunks generalizing s with
  | nil =>
    have halted := started.resolve_left fun nonempty => nonempty rfl
    rw [List.flatten_nil, List.append_nil, scanAll_of_halted halted]
    exact ⟨s, rfl, rfl, rfl⟩
  | cons c cs ih =>
    rw [List.flatten_cons] at fits
    obtain ⟨t, feeds, buf, snap⟩ :=
      ih (s := (s.withBuf (scanAll (s.buf ++ c)).2).withResult (.frames (scanAll (s.buf ++ c)).1))
        (fits.right rfl rfl) (.inr (scanHalted_scanAll (s.buf ++ c)))
    rw [List.flatten_cons, ← List.append_assoc, scanAll_append]
    refine ⟨t, ?_, buf, snap⟩
    rw [feedChunks, exec_feed_of_fits fits.left]
    simp only [feeds, State.withResult_result, State.withResult_buf, State.withBuf_buf]

/-- RECEIVE of chunks in turn likewise, with the PARSEs of all frames emitted. -/
theorem exists_receiveChunks {chunks : List (List Byte)} {s : State} (fits : Fits chunks.flatten s)
    (started : chunks ≠ [] ∨ ScanHalted s.buf) :
    ∃ t, receiveChunks chunks s = some ((scanAll (s.buf ++ chunks.flatten)).1, t) ∧
      t.buf = (scanAll (s.buf ++ chunks.flatten)).2 ∧
      parseFrames (scanAll (s.buf ++ chunks.flatten)).1 s.snap = some t.snap := by
  induction chunks generalizing s with
  | nil =>
    have halted := started.resolve_left fun nonempty => nonempty rfl
    rw [List.flatten_nil, List.append_nil, scanAll_of_halted halted]
    exact ⟨s, rfl, rfl, rfl⟩
  | cons c cs ih =>
    rw [List.flatten_cons] at fits
    obtain ⟨mid, parses⟩ := exists_parseFrames_scanAll (s.buf ++ c) s.snap
    obtain ⟨t, receives, buf, snap⟩ :=
      ih (s := ((s.withBuf (scanAll (s.buf ++ c)).2).withSnap mid).withResult (.frames (scanAll (s.buf ++ c)).1))
        (fits.right rfl rfl) (.inr (scanHalted_scanAll (s.buf ++ c)))
    rw [List.flatten_cons, ← List.append_assoc, scanAll_append]
    refine ⟨t, ?_, buf, ?_⟩
    · rw [receiveChunks, exec_receive_of_parseFrames fits.left parses]
      simp only [receives, State.withResult_result, State.withResult_buf, State.withSnap_buf, State.withBuf_buf]
    · rw [parseFrames_append, parses]
      exact snap

/-! ### Garbage before a frame (R142) -/

/-- A valid frame is composed of its type and payload. -/
theorem exists_composeFrame_of_frameValid {frame : Frame} (valid : FrameValid frame) :
    ∃ type payload, payload.length ≤ 62 ∧ frame = composeFrame type payload := by
  obtain ⟨type, payload, crc, payloadFits, rfl⟩ :=
    (holdsCandidate_of_frameValid valid).eq_candidateOf (length_of_frameValid valid)
  rw [(frameValid_candidateOf_iff payloadFits).mp valid]
  exact ⟨type, payload, payloadFits, rfl⟩

/-- Bytes that are no sync byte are dropped one after the other, while 4 bytes are there (R133). -/
theorem scanAll_append_of_not_mem {garbage : List Byte} (noSync : sync ∉ garbage) {b : List Byte}
    (long : 4 ≤ b.length) : scanAll (garbage ++ b) = scanAll b := by
  induction garbage with
  | nil => rfl
  | cons x garbage ih =>
    obtain ⟨head, tail⟩ := List.ne_and_not_mem_of_not_mem_cons noSync
    have stillLong : 4 ≤ ((x :: garbage) ++ b).length := long.trans (List.suffix_append _ b).length_le
    rw [scanAll_of_drops (o := .nonsync) trivial ⟨stillLong, Ne.symm head⟩]
    exact ih tail

/-- No candidate that starts in the garbage and extends into what stands behind it is a valid frame: the premise of
R142 (a). -/
def NoFrameAcross (garbage behind : List Byte) : Prop :=
  ∀ j < garbage.length, garbage.length < j + (candidateAt (garbage ++ behind) j).length →
    ¬ FrameValid (candidateAt (garbage ++ behind) j)

theorem candidateAt_drop (stream : List Byte) (k j : Nat) :
    candidateAt (stream.drop k) j = candidateAt stream (k + j) := by
  rw [candidateAt, candidateAt, List.drop_drop, byteAt_drop, Nat.add_assoc]

/-- The premise stays when bytes of the garbage are removed. -/
theorem NoFrameAcross.drop {garbage behind : List Byte} (h : NoFrameAcross garbage behind) {k : Nat}
    (inside : k ≤ garbage.length) : NoFrameAcross (garbage.drop k) behind := by
  intro j hj
  rw [← List.drop_append_of_le_length inside, candidateAt_drop, List.length_drop]
  rw [List.length_drop] at hj
  intro across
  exact h (k + j) (by omega) (by omega)

/-- A composed frame is the candidate at its first byte. -/
theorem candidateAt_composeFrame_append {type : Byte} {payload : List Byte} (payloadFits : payload.length ≤ 62)
    (rest : List Byte) : candidateAt (composeFrame type payload ++ rest) 0 = composeFrame type payload := by
  have length : (byteAt (composeFrame type payload ++ rest) (0 + 1)).toNat = payload.length + 2 :=
    lengthByte_candidateOf_append (type := type) payloadFits rest
  rw [candidateAt, length, List.drop_zero]
  exact List.take_left' (composeFrame_length type payload)

/-- A move removes one byte, or the valid frame that is the candidate. -/
theorem ScanMove.eq_drop {b b' : List Byte} {fs : List Frame} (h : ScanMove b fs b') :
    b' = b.drop 1 ∨ (FrameValid (candidateAt b 0) ∧ b' = b.drop (candidateAt b 0).length) := by
  cases h with
  | nonsync | oversize | undersize | badcrc => exact .inl rfl
  | @emit type crc payload rest payloadFits right =>
    subst right
    refine .inr ?_
    change FrameValid (candidateAt (composeFrame type payload ++ b') 0) ∧
      b' = (composeFrame type payload ++ b').drop (candidateAt (composeFrame type payload ++ b') 0).length
    rw [candidateAt_composeFrame_append payloadFits]
    exact ⟨frameValid_composeFrame payloadFits, (List.drop_left' rfl).symm⟩

/-- A move from the garbage on removes bytes of the garbage alone. -/
theorem NoFrameAcross.exists_drop {garbage behind b' : List Byte} {fs : List Frame}
    (h : NoFrameAcross garbage behind) (nonempty : 0 < garbage.length) (move : ScanMove (garbage ++ behind) fs b') :
    ∃ k, 0 < k ∧ k ≤ garbage.length ∧ b' = garbage.drop k ++ behind := by
  obtain hdrop | ⟨valid, hdrop⟩ := move.eq_drop
  · exact ⟨1, Nat.one_pos, nonempty, hdrop.trans (List.drop_append_of_le_length nonempty)⟩
  · have inside : (candidateAt (garbage ++ behind) 0).length ≤ garbage.length := by
      by_contra across
      exact h 0 nonempty (by omega) valid
    have positive : 0 < (candidateAt (garbage ++ behind) 0).length := by
      rw [length_of_frameValid valid]
      exact Nat.succ_pos _
    exact ⟨_, positive, inside, hdrop.trans (List.drop_append_of_le_length inside)⟩

/-- The scan comes to what stands behind the garbage, or halts before it with all of that still in the buffer. -/
theorem NoFrameAcross.exists_scanMoves {garbage behind : List Byte} (h : NoFrameAcross garbage behind) :
    ∃ n before rest, ScanMoves n (garbage ++ behind) before (rest ++ behind) ∧ rest <:+ garbage ∧
      n ≤ garbage.length ∧ (rest = [] ∨ ScanHalted (rest ++ behind)) := by
  induction hlen : garbage.length using Nat.strong_induction_on generalizing garbage with
  | _ len ih =>
    have stays : ScanMoves 0 (garbage ++ behind) [] (garbage ++ behind) := .refl _
    obtain rfl | nonempty := (Nat.eq_zero_or_pos garbage.length).imp_left List.eq_nil_of_length_eq_zero
    · exact ⟨0, [], [], stays, List.suffix_refl [], Nat.zero_le len, .inl rfl⟩
    obtain halted | ⟨fs, b', move⟩ := scanHalted_or_scanMove (garbage ++ behind)
    · exact ⟨0, [], garbage, stays, List.suffix_refl garbage, Nat.zero_le len, .inr halted⟩
    obtain ⟨k, positive, inside, rfl⟩ := h.exists_drop nonempty move
    obtain ⟨n, before, rest, moves, suffix, bound, ending⟩ :=
      ih (garbage.drop k).length (by rw [List.length_drop]; omega) (h.drop inside) rfl
    refine ⟨n + 1, fs ++ before, rest, .step move moves, suffix.trans (List.drop_suffix k garbage), ?_, ending⟩
    rw [List.length_drop] at bound
    omega

end Sys2Proof.Machine

open Sys2Proof Sys2Proof.Machine

/-- Settles O28: the scan of the appended chunk makes moves to a halt, and each move removes a byte. -/
theorem feedRunsScanToHalt : Obligations.FeedRunsScanToHalt := by
  refine ⟨fun chunk s fits => ?_, fun _ _ _ => ScanMove.length_lt⟩
  obtain ⟨n, moves, halted, bound⟩ := exists_scanMoves_scanAll (s.buf ++ chunk)
  rw [List.length_append] at bound
  exact ⟨n, _, _, exec_feed_of_fits fits, moves, halted, bound⟩

/-- Settles O29: the scan halts, at fewer than 4 bytes or waiting for a frame of at most 66. -/
theorem feedLeavesQuiescentBuffer : Obligations.FeedLeavesQuiescentBuffer := by
  refine ⟨fun chunk s t h => ?feed, fun s t h => ?reset⟩
  case feed =>
    obtain ⟨-, rfl⟩ := execFeed_next h
    have halted := scanHalted_scanAll (s.buf ++ chunk)
    refine ⟨?_, halted.length_le⟩
    obtain short | waiting := halted.quiescent
    · exact .inl ⟨short, fun waiting => AwaitsFrame.not_short waiting short⟩
    · exact .inr ⟨AwaitsFrame.not_short waiting, waiting⟩
  case reset =>
    obtain rfl := Host.Outcome.next.inj h
    exact Nat.zero_le 3

/-- Settles O30: both results are the frames of the scan, which emits valid candidates only. -/
theorem emittedFramesAreValid : Obligations.EmittedFramesAreValid := by
  intro chunk s t frames completes returned
  have emitted : t.result = some (.frames (scanAll (s.buf ++ chunk)).1) := by
    obtain fed | received := completes
    · obtain ⟨-, rfl⟩ := execFeed_next fed
      rfl
    · obtain ⟨-, snap, -, rfl⟩ := execReceive_next received
      rfl
  obtain rfl := Result.frames.inj (Option.some.inj (emitted.symm.trans returned))
  exact frameValid_of_mem_scan _ _

/-- Settles O31: the FEEDs of the chunks and the FEED of the whole both come to the scan of the whole. -/
theorem feedDoesNotDependOnChunking : Obligations.FeedDoesNotDependOnChunking := by
  intro chunks s fits nonempty
  obtain ⟨t, feeds, buf, snap⟩ := exists_feedChunks fits (.inl nonempty)
  exact ⟨_, t, _, feeds, exec_feed_of_fits fits, rfl, buf.symm, snap.symm⟩

/-- Settles O32: as for FEED, and the PARSEs of all frames emitted end in one snapshot. -/
theorem receiveDoesNotDependOnChunking : Obligations.ReceiveDoesNotDependOnChunking := by
  intro chunks s fits nonempty
  obtain ⟨t, receives, buf, snap⟩ := exists_receiveChunks fits (.inl nonempty)
  exact ⟨_, t, _, receives, exec_receive_of_parseFrames fits snap, rfl, buf.symm, rfl⟩

/-- Settles O34: the garbage is dropped byte by byte, and the frame behind it is emitted. -/
theorem garbageWithoutSyncIsDropped : Obligations.GarbageWithoutSyncIsDropped := by
  intro garbage frame s valid noSync empty fits
  obtain ⟨type, payload, payloadFits, rfl⟩ := exists_composeFrame_of_frameValid valid
  refine exec_feed_of_scanAll fits ?_
  rw [empty, List.nil_append, scanAll_append_of_not_mem noSync (by simp)]
  exact scanAll_composeFrame payloadFits

/-- Settles O35: the moves from the garbage come to the frame or to a halt; a halted buffer has at most 65 bytes, so
that with 66 from the frame on it is the frame they come to, which the scan then emits. -/
theorem resynchronizationDeliversFrame : Obligations.ResynchronizationDeliversFrame := by
  intro garbage frame more valid noFrame
  simp only [List.append_assoc] at noFrame ⊢
  obtain ⟨n, before, rest, moves, suffix, bound, ending⟩ := NoFrameAcross.exists_scanMoves noFrame
  refine ⟨n, before, rest, moves, suffix, bound, ending, fun enough => ?_⟩
  have arrived : rest = [] := ending.resolve_right fun halted => by
    have short := halted.length_le
    simp only [List.length_append] at short
    omega
  refine ⟨arrived, fun s empty fits => ?_⟩
  obtain ⟨type, payload, payloadFits, rfl⟩ := exists_composeFrame_of_frameValid valid
  refine ⟨(scanAll more).1, (scanAll more).2, exec_feed_of_scanAll fits ?_⟩
  rw [empty, List.nil_append, scanAll_of_scanMoves moves, arrived, List.nil_append,
    scanAll_composeFrame_append payloadFits]

/-- Settles O37: a FEED overflows exactly where a finite capacity is exceeded; otherwise the chunk fits, and what is
emitted parses. -/
theorem overflowingFeedIsRefused : Obligations.OverflowingFeedIsRefused := by
  intro chunk s
  have completes (fits : Fits chunk s) :
      (∃ t, exec (.feed chunk) s = .next t) ∧ ∃ t, exec (.receive chunk) s = .next t :=
    ⟨⟨_, exec_feed_of_fits fits⟩, exists_exec_receive fits⟩
  refine ⟨fun cap hcap exceeded => ?overflows, fun cap hcap within => completes ?finite,
    fun unbounded => completes ?unbounded⟩
  case overflows =>
    have overflow := overflows_of_cap_lt hcap exceeded
    exact ⟨exec_feed_of_overflows overflow, exec_receive_of_overflows overflow⟩
  case finite =>
    intro cap' hcap'
    obtain rfl := Option.some.inj (hcap.symm.trans hcap')
    exact within
  case unbounded =>
    intro cap hcap
    cases unbounded.symm.trans hcap
end

section
/-! PROOF. Rules that hold of every instruction: what it leaves unchanged (spec/20_memory.md R49), when it is refused
(spec/60_exceptions.md R200, R211), and the invariant of the state between transactions (R24, R25, R140). -/

namespace Sys2Proof.Machine

/-! ### Frames (R49, R222) -/

/-- No instruction touches the parameter, a queue or the order to come. -/
theorem exec_portsKept {i : Instr} {s t : State} (h : exec i s = .next t) : PortsKept s t := by
  obtain ⟨buf, snap, r, rfl⟩ := exec_next h
  exact ⟨rfl, rfl, rfl, rfl, rfl⟩

/-- An instruction keeps the buffer, empties it, or leaves what the scan leaves of it with a chunk that fits. -/
theorem exec_buf {i : Instr} {s t : State} (h : exec i s = .next t) :
    t.buf = s.buf ∨ t.buf = [] ∨ ∃ chunk, Fits chunk s ∧ t.buf = (scanAll (s.buf ++ chunk)).2 := by
  by_cases reset : i = .reset
  · obtain rfl := reset
    obtain rfl := Host.Outcome.next.inj h
    exact .inr (.inl rfl)
  by_cases stream : ∀ chunk, i ≠ .feed chunk ∧ i ≠ .receive chunk
  · exact .inl (exec_keeps_buf h stream reset)
  · simp only [not_forall, not_and_or, not_not] at stream
    obtain ⟨chunk, rfl | rfl⟩ := stream
    · obtain ⟨within, rfl⟩ := execFeed_next h
      exact .inr (.inr ⟨chunk, fits_of_not_overflows within, rfl⟩)
    · obtain ⟨within, snap, -, rfl⟩ := execReceive_next h
      exact .inr (.inr ⟨chunk, fits_of_not_overflows within, rfl⟩)

/-! ### The refusals (R211) -/

/-- A packet-type row completes on every payload a frame carries: the converse of `parsePayload_next`. -/
theorem parsePayload_of_length_le {payload : List Byte} (h : payload.length ≤ 62) (type : Byte) (s : State) :
    parsePayload type payload s = .next ((s.withSnap (commitPayload type payload s.snap)).withResult .done) :=
  if_pos h

/-- The closed list of R211: the reason for which an instruction is refused in a state. -/
def ListedRefusal (i : Instr) (s : State) (r : Refusal) : Prop :=
  (r = .reservedCommand ∧ ∃ operand, i = .reserved111 operand) ∨
  (r = .bufferOverflow ∧ ∃ chunk cap, (i = .feed chunk ∨ i = .receive chunk) ∧ s.bufCap = some cap ∧
    cap < s.buf.length + chunk.length) ∨
  (r = .invalidFrame ∧ ∃ frame, i = .parse frame ∧ ¬ FrameValid frame)

theorem exec_of_listedRefusal {i : Instr} {s : State} {r : Refusal} (h : ListedRefusal i s r) :
    exec i s = .refused r := by
  obtain ⟨rfl, operand, rfl⟩ | ⟨rfl, chunk, cap, rfl | rfl, hcap, exceeded⟩ | ⟨rfl, frame, rfl, invalid⟩ := h
  · rfl
  · exact exec_feed_of_overflows (overflows_of_cap_lt hcap exceeded)
  · exact exec_receive_of_overflows (overflows_of_cap_lt hcap exceeded)
  · exact exec_parse_of_not_frameValid invalid s

/-- A chunk that overflows is on the list, for FEED and RECEIVE alike. -/
theorem listedRefusal_of_overflows {i : Instr} {chunk : List Byte} (stream : i = .feed chunk ∨ i = .receive chunk)
    {s : State} (h : overflows s chunk = true) : ListedRefusal i s .bufferOverflow :=
  have ⟨cap, hcap, exceeded⟩ := (overflows_iff s chunk).mp h
  .inr (.inl ⟨rfl, chunk, cap, stream, hcap, exceeded⟩)

/-- A well-formed instruction completes unless it is on the list. -/
theorem exec_next_or_listedRefusal {i : Instr} (wellFormed : WellFormed i = true) (s : State) :
    (∃ t, exec i s = .next t) ∨ ∃ r, ListedRefusal i s r := by
  cases i with
  | reset | checksum bytes | read => exact .inl ⟨_, rfl⟩
  | encode channels =>
    by_cases count : channels.length = 16
    · exact .inl ⟨_, exec_encode_of_length count s⟩
    · exact .inl ⟨_, exec_encode_of_length_ne count s⟩
  | feed chunk =>
    cases overflow : overflows s chunk with
    | true => exact .inr ⟨_, listedRefusal_of_overflows (.inl rfl) overflow⟩
    | false => exact .inl ⟨_, exec_feed_of_fits (fits_of_not_overflows overflow)⟩
  | receive chunk =>
    cases overflow : overflows s chunk with
    | true => exact .inr ⟨_, listedRefusal_of_overflows (.inr rfl) overflow⟩
    | false => exact .inl (exists_exec_receive (fits_of_not_overflows overflow))
  | parse frame =>
    by_cases valid : FrameValid frame
    · exact .inl ⟨_, exec_parse_of_commitPayload valid rfl⟩
    · exact .inr ⟨_, .inr (.inr ⟨rfl, frame, rfl, valid⟩)⟩
  | reserved111 operand => exact .inr ⟨_, .inl ⟨rfl, operand, rfl⟩⟩
  | typeLinkStatistics payload | typeBatterySensor payload | typeGps payload | typeRcChannelsPacked payload =>
    exact .inl ⟨_, parsePayload_of_length_le ((payloadFits_iff payload).mp wellFormed) _ s⟩
  | typeOther type payload =>
    obtain ⟨-, payloadFits⟩ := Bool.and_eq_true_iff.mp wellFormed
    exact .inl ⟨_, parsePayload_of_length_le ((payloadFits_iff payload).mp payloadFits) type s⟩

/-- A well-formed instruction is refused exactly for a reason on the list. -/
theorem exec_eq_refused_iff {i : Instr} (wellFormed : WellFormed i = true) (s : State) (r : Refusal) :
    exec i s = .refused r ↔ ListedRefusal i s r := by
  refine ⟨fun refused => ?_, exec_of_listedRefusal⟩
  obtain ⟨t, completes⟩ | ⟨r', listed⟩ := exec_next_or_listedRefusal wellFormed s
  · cases completes.symm.trans refused
  · obtain rfl := Host.Outcome.refused.inj ((exec_of_listedRefusal listed).symm.trans refused)
    exact listed

/-! ### The range of the fields (R25) -/

theorem toNat_range {w : Nat} {x : BitVec w} {v : Int} (h : some (x.toNat : Int) = some v) :
    0 ≤ v ∧ v ≤ 2 ^ w - 1 := by
  obtain rfl := Option.some.inj h
  have below : (x.toNat : Int) < 2 ^ w := mod_cast x.isLt
  omega

theorem sext_range {w n : Nat} {v : Int} (h : some (sext w n) = some v) :
    -2 ^ (w - 1) ≤ v ∧ v ≤ 2 ^ (w - 1) - 1 := by
  obtain rfl := Option.some.inj h
  exact ⟨BitVec.le_toInt _, Int.le_sub_one_of_lt BitVec.toInt_lt⟩

theorem commitLinkStatistics_absent_range {p : List Byte} {f : Field} {v : Int}
    (h : (commitLinkStatistics p .absent).read f = some v) : f.range.1 ≤ v ∧ v ≤ f.range.2 := by
  cases f with
  | ls_uplink_rssi_1 | ls_uplink_rssi_2 | ls_uplink_link_quality | ls_active_antenna | ls_rf_mode
  | ls_uplink_tx_power | ls_downlink_rssi | ls_downlink_link_quality => exact toNat_range h
  | ls_uplink_snr | ls_downlink_snr => exact sext_range h
  | bat_voltage | bat_current | bat_capacity | bat_remaining | gps_latitude | gps_longitude | gps_ground_speed
  | gps_heading | gps_altitude => cases h

theorem commitBattery_absent_range {p : List Byte} {f : Field} {v : Int}
    (h : (commitBattery p .absent).read f = some v) : f.range.1 ≤ v ∧ v ≤ f.range.2 := by
  cases f with
  | bat_voltage | bat_current | bat_capacity | bat_remaining => exact toNat_range h
  | ls_uplink_rssi_1 | ls_uplink_rssi_2 | ls_uplink_link_quality | ls_active_antenna | ls_rf_mode
  | ls_uplink_tx_power | ls_downlink_rssi | ls_downlink_link_quality | ls_uplink_snr | ls_downlink_snr
  | gps_latitude | gps_longitude | gps_ground_speed | gps_heading | gps_altitude => cases h

theorem commitGps_absent_range {p : List Byte} {f : Field} {v : Int}
    (h : (commitGps p .absent).read f = some v) : f.range.1 ≤ v ∧ v ≤ f.range.2 := by
  cases f with
  | gps_ground_speed | gps_heading => exact toNat_range h
  | gps_latitude | gps_longitude | gps_altitude => exact sext_range h
  | ls_uplink_rssi_1 | ls_uplink_rssi_2 | ls_uplink_link_quality | ls_active_antenna | ls_rf_mode
  | ls_uplink_tx_power | ls_downlink_rssi | ls_downlink_link_quality | ls_uplink_snr | ls_downlink_snr
  | bat_voltage | bat_current | bat_capacity | bat_remaining => cases h

theorem Snapshot.absent_inRange : Snapshot.absent.InRange := by
  intro f v h
  rw [Snapshot.read_absent] at h
  cases h

/-- What a payload supplies to a field is a value of the field's type. -/
theorem suppliedValue_range {type : Byte} {payload : List Byte} {f : Field} {v : Int}
    (h : suppliedValue type payload f = some v) : f.range.1 ≤ v ∧ v ≤ f.range.2 := by
  unfold suppliedValue commitPayload at h
  split_ifs at h
  case pos => exact commitLinkStatistics_absent_range h
  case pos => exact commitBattery_absent_range h
  case pos => exact commitGps_absent_range h
  all_goals exact Snapshot.absent_inRange f v h

/-! ### The invariant -/

/-- The invariant speaks of buffer, snapshot and capacity alone. -/
theorem State.Inv.congr {s t : State} (inv : s.Inv) (hbuf : t.buf = s.buf) (hsnap : t.snap = s.snap)
    (hcap : t.bufCap = s.bufCap) : t.Inv := by
  obtain ⟨quiescent, withinCapacity, inRange⟩ := inv
  refine ⟨by rwa [hbuf], ?_, by rwa [hsnap]⟩
  rwa [WithinCapacity, hbuf, hcap]

theorem exec_keeps_inRange {i : Instr} {s t : State} (inRange : s.snap.InRange) (h : exec i s = .next t) :
    t.snap.InRange := by
  by_cases reset : i = .reset
  · obtain rfl := reset
    obtain rfl := Host.Outcome.next.inj h
    exact Snapshot.absent_inRange
  intro f v hv
  obtain kept | ⟨frame, -, -, v', supplied, value⟩ := exec_keeps_or_supplies h reset f
  · exact inRange f v (kept ▸ hv)
  · obtain rfl := Option.some.inj (value.symm.trans hv)
    exact suppliedValue_range supplied

theorem exec_keeps_quiescent {i : Instr} {s t : State} (quiescent : Quiescent s.buf) (h : exec i s = .next t) :
    Quiescent t.buf := by
  obtain kept | emptied | ⟨chunk, -, scanned⟩ := exec_buf h
  · rwa [kept]
  · rw [emptied]
    exact .inl (Nat.zero_le 3)
  · rw [scanned]
    exact (scanHalted_scanAll _).quiescent

theorem exec_keeps_withinCapacity {i : Instr} {s t : State} (within : WithinCapacity s) (h : exec i s = .next t) :
    WithinCapacity t := by
  intro cap tcap
  obtain ⟨hcap, -⟩ := exec_portsKept h
  have scap := hcap.symm.trans tcap
  obtain kept | emptied | ⟨chunk, fits, scanned⟩ := exec_buf h
  · rw [kept]
    exact within cap scap
  · rw [emptied]
    exact Nat.zero_le cap
  · have left := (scanAll_suffix (s.buf ++ chunk)).length_le
    rw [List.length_append] at left
    rw [scanned]
    exact left.trans (fits cap scap)

theorem exec_keeps_inv {i : Instr} {s t : State} (inv : s.Inv) (h : exec i s = .next t) : t.Inv :=
  ⟨exec_keeps_quiescent inv.quiescent h, exec_keeps_withinCapacity inv.withinCapacity h,
    exec_keeps_inRange inv.inRange h⟩

end Sys2Proof.Machine

open Sys2Proof Sys2Proof.Machine

/-- Settles O55: every instruction keeps each part of the invariant, and nothing else in a step touches what the
invariant speaks of. -/
theorem everyStepKeepsInvariant : Obligations.EveryStepKeepsInvariant := by
  intro s t inv h
  obtain ⟨-, rfl⟩ | ⟨a, rest, -, -, rfl⟩ | ⟨a, rest, w, ws, i, u, -, -, -, completes, rfl⟩ := step_next h
  · exact inv
  · exact inv.congr rfl rfl rfl
  · exact (exec_keeps_inv inv completes).congr (State.deliver_buf u a) (State.deliver_snap u a)
      (State.deliver_bufCap u a)

/-- Settles O56: the reset buffer is empty, there is no capacity, and no field is present. -/
theorem invariantHoldsAtReset : Obligations.InvariantHoldsAtReset :=
  ⟨.inl (Nat.zero_le 3), nofun, Snapshot.absent_inRange⟩

/-- Settles O53: a well-formed instruction is on the list, and then refused for the reason listed, or it completes. -/
theorem refusalsAreTheClosedList : Obligations.RefusalsAreTheClosedList := by
  intro i s wellFormed
  refine ⟨exec_eq_refused_iff wellFormed s, ?_⟩
  obtain completes | ⟨r, listed⟩ := exec_next_or_listedRefusal wellFormed s
  · exact .inr completes
  · exact .inl ⟨r, exec_of_listedRefusal listed⟩

/-- Settles O54: every instruction keeps the ports; CHECKSUM, ENCODE and READ write the result port alone, and FEED
writes the buffer beside it. -/
theorem instructionFrames : Obligations.InstructionFrames := by
  intro i s t h
  refine ⟨exec_portsKept h, ?checksum, ?encode, ?read, ?feed⟩
  case checksum =>
    rintro bytes rfl
    obtain rfl := Host.Outcome.next.inj h
    exact ⟨rfl, rfl⟩
  case encode =>
    rintro channels rfl
    obtain rfl | rfl := execEncode_next h
    · exact ⟨rfl, rfl⟩
    · exact ⟨rfl, rfl⟩
  case read =>
    rintro rfl
    obtain rfl := Host.Outcome.next.inj h
    exact ⟨rfl, rfl⟩
  case feed =>
    rintro chunk rfl
    obtain ⟨-, rfl⟩ := execFeed_next h
    rfl
end

section
/-! PROOF. Reset (spec/10_state.md R23, R26; spec/70_reset_and_hazards.md R220), the outcomes of PARSE and of ENCODE on
operands they do not accept (R160, R201), and the interpretations of the raw values (R170). -/

open Sys2Proof Sys2Proof.Machine

/-- Settles O11: the reset state is built of the empty buffer and the absent snapshot. -/
theorem resetStateHoldsResetValues : Obligations.ResetStateHoldsResetValues :=
  ⟨rfl, Snapshot.read_absent⟩

/-- Settles O12: RESET writes the empty buffer and the absent snapshot, and keeps the ports as every instruction does. -/
theorem resetEmptiesBlock : Obligations.ResetEmptiesBlock := fun s =>
  ⟨((s.withBuf []).withSnap .absent).withResult .done, rfl, rfl, Snapshot.read_absent, rfl,
    exec_portsKept (i := .reset) rfl⟩

/-- Settles O13: both RESETs leave one buffer and one snapshot, from which RECEIVE of a chunk that fits scans and
parses. -/
theorem resetStartsFreshStream : Obligations.ResetStartsFreshStream := by
  intro s1 s2 t1 t2 chunk sameCap reset1 reset2 fits1
  obtain rfl := Host.Outcome.next.inj reset1
  obtain rfl := Host.Outcome.next.inj reset2
  have fits2 : Fits chunk (((s2.withBuf []).withSnap .absent).withResult .done) := fun cap hcap =>
    fits1 cap (sameCap.trans hcap)
  obtain ⟨snap, parses⟩ := exists_parseFrames_scanAll ([] ++ chunk) .absent
  exact ⟨_, _, exec_receive_of_parseFrames fits1 parses, exec_receive_of_parseFrames fits2 parses, rfl, rfl, rfl⟩

/-- Settles O22: the count decides for the error, whose cause code is fixed. -/
theorem encodeWrongCountIsInputLengthError : Obligations.EncodeWrongCountIsInputLengthError :=
  fun channels s wrongCount =>
    have completes := exec_encode_of_length_ne wrongCount s
    ⟨s.withResult (.inputLengthError channels.length), _, completes, rfl, rfl, rfl, rfl, rfl, exec_portsKept completes⟩

/-- Settles O40: FrameValid is the test of PARSE, on either side of it. -/
theorem parseRefusesExactlyInvalidFrames : Obligations.ParseRefusesExactlyInvalidFrames := by
  intro frame s
  refine ⟨fun valid => ?_, fun invalid => exec_parse_of_not_frameValid invalid s⟩
  have completes := exec_parse_of_commitPayload (s := s) valid rfl
  exact ⟨_, completes, rfl, rfl, exec_portsKept completes⟩

/-- Settles O57: each scaled value is multiplied back by its divisor. -/
theorem interpretationsScaleRawValues : Obligations.InterpretationsScaleRawValues := by
  have hundred (x : Rat) : x / 100 * 100 = x := div_mul_cancel₀ x (by decide)
  refine ⟨fun raw => ⟨hundred _, hundred _, rfl, rfl, hundred _⟩, fun raw => rfl, fun raw => ⟨?degrees, ?metres⟩⟩
  case degrees =>
    unfold degrees
    norm_num
  case metres =>
    rw [metres, metresFrom, hundred, Int.cast_sub]
end

section
/-! PROOF. The step and the agents (spec/20_memory.md R47, R51, R52; spec/60_exceptions.md R209): what a step does with
the next transaction, that it depends on the block alone, and how an agent's queue and results move over a run. -/

namespace Sys2Proof.Machine

/-! ### The step by the next transaction (R51) -/

theorem nextTransaction_of_pending {s : State} {a : Agent} {rest : List Agent} {w : PortWord} {ws : List PortWord}
    (hsched : s.schedule = a :: rest) (hpend : (s.port a).pending = w :: ws) : nextTransaction s = .issue a w := by
  simp only [nextTransaction, hsched, hpend]

theorem step_of_schedule_nil {s : State} (hsched : s.schedule = []) : step s = .next s := by
  simp only [step, nextTransaction, hsched]

theorem step_of_pending_nil {s : State} {a : Agent} {rest : List Agent} (hsched : s.schedule = a :: rest)
    (hpend : (s.port a).pending = []) : step s = .next (s.withSchedule rest) := by
  simp only [step, nextTransaction, hsched, hpend]

section issue

variable {s t : State} {a : Agent} {w : PortWord} {i : Instr}

theorem step_of_decode_error {e : DecodeError} (issue : nextTransaction s = .issue a w) (hdec : decode w = .error e) :
    step s = .refused (.malformed e) := by
  simp only [step, issue, hdec]

theorem step_of_exec_next (issue : nextTransaction s = .issue a w) (hdec : decode w = .ok i)
    (completes : exec i s = .next t) : step s = .next (t.deliver a) := by
  simp only [step, issue, hdec, completes]

theorem step_of_exec_refused {r : Refusal} (issue : nextTransaction s = .issue a w) (hdec : decode w = .ok i)
    (refused : exec i s = .refused r) : step s = .refused r := by
  simp only [step, issue, hdec, refused]

end issue

theorem exec_keeps_port {i : Instr} {s t : State} (h : exec i s = .next t) (a : Agent) : t.port a = s.port a := by
  obtain ⟨buf, snap, r, rfl⟩ := exec_next h
  simp

theorem exec_keeps_schedule {i : Instr} {s t : State} (h : exec i s = .next t) : t.schedule = s.schedule := by
  obtain ⟨buf, snap, r, rfl⟩ := exec_next h
  simp

/-! ### The block decides, not the agent (R209) -/

/-- Two machines agree on all an instruction reads: the block's state and its capacity. -/
structure SameBlock (s1 s2 : State) : Prop where
  buf : s1.buf = s2.buf
  snap : s1.snap = s2.snap
  bufCap : s1.bufCap = s2.bufCap

theorem SameBlock.fits {s1 s2 : State} (same : SameBlock s1 s2) {chunk : List Byte} (h : Fits chunk s1) :
    Fits chunk s2 := by
  rwa [Fits, same.buf, same.bufCap] at h

theorem SameBlock.listedRefusal {s1 s2 : State} (same : SameBlock s1 s2) {i : Instr} {r : Refusal}
    (h : ListedRefusal i s1 r) : ListedRefusal i s2 r := by
  rwa [ListedRefusal, same.buf, same.bufCap] at h

theorem SameBlock.commit {s1 s2 : State} (same : SameBlock s1 s2) (type : Byte) (payload : List Byte) :
    SameBlock ((s1.withSnap (commitPayload type payload s1.snap)).withResult .done)
      ((s2.withSnap (commitPayload type payload s2.snap)).withResult .done) :=
  ⟨same.buf, congrArg (commitPayload type payload) same.snap, same.bufCap⟩

/-- An instruction that completes completes alike in a machine with the same block. -/
theorem SameBlock.exec_next {s1 s2 t1 : State} (same : SameBlock s1 s2) {i : Instr} (h : exec i s1 = .next t1) :
    ∃ t2, exec i s2 = .next t2 ∧ SameBlock t1 t2 ∧ t1.result = t2.result := by
  cases i with
  | reset =>
    obtain rfl := Host.Outcome.next.inj h
    exact ⟨_, rfl, ⟨rfl, rfl, same.bufCap⟩, rfl⟩
  | checksum bytes =>
    obtain rfl := Host.Outcome.next.inj h
    exact ⟨_, rfl, ⟨same.buf, same.snap, same.bufCap⟩, rfl⟩
  | encode channels =>
    obtain ⟨-, encodePure⟩ := writerOperationsArePure
    obtain ⟨r, pure⟩ := encodePure channels
    obtain rfl := Host.Outcome.next.inj ((pure s1).symm.trans h)
    exact ⟨_, pure s2, ⟨same.buf, same.snap, same.bufCap⟩, rfl⟩
  | feed chunk =>
    obtain ⟨within, rfl⟩ := execFeed_next h
    refine ⟨_, exec_feed_of_fits (same.fits (fits_of_not_overflows within)), ⟨?_, same.snap, same.bufCap⟩, ?_⟩
    · simp [same.buf]
    · simp [same.buf]
  | parse frame =>
    obtain ⟨valid, rfl⟩ := execParse_next h
    exact ⟨_, exec_parse_of_commitPayload valid rfl, same.commit (typeByte frame) (payloadOf frame), rfl⟩
  | receive chunk =>
    obtain ⟨within, snap, parses, rfl⟩ := execReceive_next h
    rw [same.buf, same.snap] at parses
    refine ⟨_, exec_receive_of_parseFrames (same.fits (fits_of_not_overflows within)) parses,
      ⟨?_, rfl, same.bufCap⟩, ?_⟩
    · simp [same.buf]
    · simp [same.buf]
  | read =>
    obtain rfl := Host.Outcome.next.inj h
    exact ⟨_, rfl, ⟨same.buf, same.snap, same.bufCap⟩, congrArg (some <| Result.snapshot ·) same.snap⟩
  | reserved111 operand => cases h
  | typeLinkStatistics payload | typeBatterySensor payload | typeGps payload | typeRcChannelsPacked payload
  | typeOther type payload =>
    obtain ⟨payloadFits, rfl⟩ := parsePayload_next h
    exact ⟨_, parsePayload_of_length_le payloadFits _ s2, same.commit _ payload, rfl⟩

/-! ### An agent's queue and results over a run (R51, R52) -/

/-- Some machine answers the port word with this result. -/
def CanAnswer (w : PortWord) (r : Result) : Prop :=
  ∃ i s t, decode w = .ok i ∧ exec i s = .next t ∧ t.result = some r

/-- From one time to a later one an agent has issued the oldest part of its queue, and has received an answer to each
transaction of that part, in order. -/
def Advances (p q : AgentPort) : Prop :=
  ∃ issued got, p.pending = issued ++ q.pending ∧ q.results = p.results ++ got ∧ List.Forall₂ CanAnswer issued got

theorem Advances.refl (p : AgentPort) : Advances p p :=
  ⟨[], [], rfl, (List.append_nil _).symm, .nil⟩

theorem Advances.trans {p q r : AgentPort} (hpq : Advances p q) (hqr : Advances q r) : Advances p r := by
  obtain ⟨issued, got, pending, results, answers⟩ := hpq
  obtain ⟨issued', got', pending', results', answers'⟩ := hqr
  refine ⟨issued ++ issued', got ++ got', ?_, ?_, List.rel_append answers answers'⟩
  · rw [pending, pending', List.append_assoc]
  · rw [results', results, List.append_assoc]

/-- A completed transaction leaves the head of its agent's queue, and its result is delivered. -/
theorem advances_deliver {s t : State} {a : Agent} {w : PortWord} {ws : List PortWord} {i : Instr}
    (hpend : (s.port a).pending = w :: ws) (hdec : decode w = .ok i) (completes : exec i s = .next t) :
    Advances (s.port a) ((t.deliver a).port a) := by
  obtain ⟨buf, snap, r, rfl⟩ := exec_next completes
  refine ⟨[w], [r], ?_, ?_, .cons ⟨i, s, _, hdec, completes, rfl⟩ .nil⟩
  · simp [hpend]
  · simp

theorem step_advances {s t : State} (h : step s = .next t) (a : Agent) : Advances (s.port a) (t.port a) := by
  obtain ⟨-, rfl⟩ | ⟨b, rest, -, -, rfl⟩ | ⟨b, rest, w, ws, i, u, -, hpend, hdec, completes, rfl⟩ := step_next h
  · exact .refl _
  · rw [State.port_withSchedule]
    exact .refl _
  · by_cases issuer : a = b
    · obtain rfl := issuer
      exact advances_deliver hpend hdec completes
    · rw [State.deliver_port_other u issuer, exec_keeps_port completes]
      exact .refl _

theorem runSteps_succ_next {n : Nat} {s t : State} (h : runSteps (n + 1) s = .next t) :
    ∃ u, step s = .next u ∧ runSteps n u = .next t := by
  rw [runSteps] at h
  cases hstep : step s with
  | next u => exact ⟨u, rfl, by rwa [hstep] at h⟩
  | fault r => nomatch r
  | refused r =>
    rw [hstep] at h
    cases h

theorem runSteps_advances {n : Nat} {s t : State} (h : runSteps n s = .next t) (a : Agent) :
    Advances (s.port a) (t.port a) := by
  induction n generalizing s with
  | zero =>
    obtain rfl := Host.Outcome.next.inj h
    exact .refl _
  | succ n ih =>
    obtain ⟨u, first, rest⟩ := runSteps_succ_next h
    exact (step_advances first a).trans (ih rest)

/-- A port word of an operation of the writer path (R7). -/
def IsWriterWord (w : PortWord) : Prop :=
  (∃ bytes, decode w = .ok (.checksum bytes)) ∨ ∃ channels, decode w = .ok (.encode channels)

/-- A writer word decodes to an instruction with one result, whatever the state (R102, R116). -/
theorem IsWriterWord.exists_result {w : PortWord} (h : IsWriterWord w) :
    ∃ i r, decode w = .ok i ∧ ∀ s, exec i s = .next (s.withResult r) := by
  obtain ⟨checksumPure, encodePure⟩ := writerOperationsArePure
  obtain ⟨bytes, hdec⟩ | ⟨channels, hdec⟩ := h
  · obtain ⟨r, pure⟩ := checksumPure bytes
    exact ⟨_, r, hdec, pure⟩
  · obtain ⟨r, pure⟩ := encodePure channels
    exact ⟨_, r, hdec, pure⟩

/-- All machines give a writer word one answer. -/
theorem rightUnique_canAnswer : Relator.RightUnique fun w r => IsWriterWord w ∧ CanAnswer w r := by
  rintro w r1 r2 ⟨writer, answer1⟩ ⟨-, answer2⟩
  obtain ⟨i, r, hdec, pure⟩ := writer.exists_result
  have only {r' : Result} (answer : CanAnswer w r') : r' = r := by
    obtain ⟨j, s, t, hdec', completes, returned⟩ := answer
    obtain rfl := Except.ok.inj (hdec.symm.trans hdec')
    obtain rfl := Host.Outcome.next.inj ((pure s).symm.trans completes)
    exact (Option.some.inj returned).symm
  exact (only answer1).trans (only answer2).symm

/-- From one queue of writer words, as many of them issued give the same results. -/
theorem Advances.results_unique {p q1 q2 : AgentPort} (writer : ∀ w ∈ p.pending, IsWriterWord w)
    (h1 : Advances p q1) (h2 : Advances p q2) (left : q1.pending.length = q2.pending.length) :
    q1.results = q2.results := by
  obtain ⟨issued, got1, pending1, results1, answers1⟩ := h1
  obtain ⟨issued2, got2, pending2, results2, answers2⟩ := h2
  obtain rfl := List.append_inj_left' (pending1.symm.trans pending2) left
  have issuedWriter : ∀ w ∈ issued, IsWriterWord w := fun w hw =>
    writer w (pending1 ▸ List.mem_append_left _ hw)
  have same : got1 = got2 := List.right_unique_forall₂' rightUnique_canAnswer
    ((List.forall₂_and_left _ _).mpr ⟨issuedWriter, answers1⟩)
    ((List.forall₂_and_left _ _).mpr ⟨issuedWriter, answers2⟩)
  rw [results1, results2, same]

end Sys2Proof.Machine

open Sys2Proof Sys2Proof.Machine

/-- Settles O5: exec keeps every port and the order, and the delivery around it moves the issuing agent's port alone. -/
theorem stepRunsDecodedInstruction : Obligations.StepRunsDecodedInstruction := by
  intro s a rest w ws i hsched hpend hdec
  have issue := nextTransaction_of_pending hsched hpend
  refine ⟨fun t completes => ?completes, fun r => step_of_exec_refused issue hdec⟩
  have port := exec_keeps_port completes
  refine ⟨t.deliver a, step_of_exec_next issue hdec completes, State.deliver_buf t a, State.deliver_snap t a,
    State.deliver_bufCap t a, State.deliver_result t a, ?schedule, ?pending, ?results, fun b other => ?others⟩
  case schedule => rw [State.deliver_schedule, exec_keeps_schedule completes, hsched, List.tail_cons]
  case pending => rw [State.deliver_port_same, port, hpend, List.tail_cons]
  case results => rw [State.deliver_port_same, port]
  case others => rw [State.deliver_port_other t other, port]

/-- Settles O6: the first two are the step's waiting and skipping, the third its refusal before any meaning runs. -/
theorem stepWithoutTransaction : Obligations.StepWithoutTransaction :=
  ⟨fun _ => step_of_schedule_nil, fun _ _ _ => step_of_pending_nil,
    fun _ _ _ _ _ _ hsched hpend => step_of_decode_error (nextTransaction_of_pending hsched hpend)⟩

/-- Settles O7: withFetchWord places the table word at the host's head and the host at the order's, where O5 runs it. -/
theorem fetchWordRunsNext : Obligations.FetchWordRunsNext := by
  intro s t nbits w i htable completes
  have hdec : decode (tableWord nbits w) = .ok i := by
    unfold decodeTableWord at htable
    split at htable
    · rename_i hdec
      rwa [← Option.some.inj htable]
    · cases htable
  obtain ⟨runs, -⟩ := stepRunsDecodedInstruction (s.withFetchWord nbits w) .host s.schedule _ s.host.pending i
    rfl rfl hdec
  obtain ⟨u, steps, buf, snap, -, result, schedule, pending, results, others⟩ := runs t completes
  exact ⟨u, steps, buf, snap, result, schedule, others .writer (by decide), others .reader (by decide), pending, results⟩

/-- Settles O8: a word that decodes is well formed, so that it completes or is on the list of refusals, and each of the
two depends on the block alone; a malformed word is refused before the block is read. -/
theorem anyAgentMayIssueAnyOperation : Obligations.AnyAgentMayIssueAnyOperation := by
  intro s1 s2 a1 a2 w hbuf hsnap hcap issue1 issue2
  have same : SameBlock s1 s2 := ⟨hbuf, hsnap, hcap⟩
  cases hdec : decode w with
  | error e =>
    rw [step_of_decode_error issue1 hdec, step_of_decode_error issue2 hdec]
    exact ⟨fun _ h => (nomatch h), fun _ h => h⟩
  | ok i =>
    obtain ⟨wellFormed, -⟩ := encodeOfDecodeIsPortWord w i hdec
    obtain ⟨u1, completes1⟩ | ⟨r, listed⟩ := exec_next_or_listedRefusal wellFormed s1
    · obtain ⟨u2, completes2, sameAfter, sameResult⟩ := same.exec_next completes1
      rw [step_of_exec_next issue1 hdec completes1, step_of_exec_next issue2 hdec completes2]
      refine ⟨fun t1 h => ?_, fun _ h => nomatch h⟩
      obtain rfl := Host.Outcome.next.inj h
      refine ⟨_, rfl, ?_⟩
      simp only [State.deliver_buf, State.deliver_snap, State.deliver_bufCap, State.deliver_result]
      exact ⟨sameAfter.buf.symm, sameAfter.snap.symm, sameAfter.bufCap.symm, sameResult.symm⟩
    · rw [step_of_exec_refused issue1 hdec (exec_of_listedRefusal listed),
        step_of_exec_refused issue2 hdec (exec_of_listedRefusal (same.listedRefusal listed))]
      exact ⟨fun _ h => (nomatch h), fun _ h => h⟩

/-- Settles O9: every step issues the head of one queue at most, and delivers one answer to it. -/
theorem eachAgentsIssueOrderIsKept : Obligations.EachAgentsIssueOrderIsKept := by
  intro n s t a h
  obtain ⟨issued, got, pending, results, answers⟩ := runSteps_advances h a
  exact ⟨issued, got, pending, results, answers.length_eq.symm⟩

/-- Settles O10: in both runs the writer path has issued the same part of its queue, and each word of it has one
answer. -/
theorem writerResultsDoNotDependOnInterleaving : Obligations.WriterResultsDoNotDependOnInterleaving := by
  intro n1 n2 s1 s2 t1 t2 same writer run1 run2 left
  have advances1 : Advances s1.writer t1.writer := runSteps_advances run1 .writer
  have advances2 : Advances s1.writer t2.writer := same ▸ runSteps_advances run2 .writer
  exact Advances.results_unique writer advances1 advances2 left
end

section
/-! PROOF. The checksum as arithmetic over GF(2) (spec/40_checksum.md R100, R103): its linearity, and the division by the
generator, one shift at a time. -/

namespace Sys2Proof.Machine

/-! ### Linearity (R103 (a)) -/

/-- CRC8_STEP is linear in accumulator and byte together. -/
theorem crc8Step_xor_xor (acc acc' b b' : Byte) :
    crc8Step (acc ^^^ acc') (b ^^^ b') = crc8Step acc b ^^^ crc8Step acc' b' := by
  simp only [crc8Step_xor, ← crcShifts_xor]
  congr 1
  ac_rfl

/-- The fold over a bytewise XOR is the XOR of the folds, from any two accumulators. -/
theorem foldl_crc8Step_zipWith_xor {a b : List Byte} (length : a.length = b.length) (acc acc' : Byte) :
    (List.zipWith (· ^^^ ·) a b).foldl crc8Step (acc ^^^ acc') = a.foldl crc8Step acc ^^^ b.foldl crc8Step acc' := by
  induction a generalizing b acc acc' with
  | nil =>
    obtain rfl := List.eq_nil_of_length_eq_zero length.symm
    rfl
  | cons x a ih =>
    match b with
    | y :: b =>
      rw [List.zipWith_cons_cons, List.foldl_cons, crc8Step_xor_xor]
      exact ih (Nat.succ.inj length) _ _

/-! ### Division by the generator (R100) -/

/-- A shift of the accumulator subtracts the generator where a bit leaves at the top. -/
theorem toNat_mul_two_eq_crcShift : ∀ a : Byte,
    a.toNat * 2 = (if a.msb then generator else 0) ^^^ (crcShift a).toNat := by
  decide +kernel

/-- The quotient bits of n shifts: the bits that leave at the top, in order. -/
def crcQuotient : Nat → Byte → List Bool
  | 0, _ => []
  | n + 1, a => a.msb :: crcQuotient n (crcShift a)

theorem crcQuotient_length (n : Nat) (a : Byte) : (crcQuotient n a).length = n := by
  induction n generalizing a with
  | zero => rfl
  | succ n ih => rw [crcQuotient, List.length_cons, ih]

/-- n shifts divide the accumulator, shifted by n, by the generator. -/
theorem toNat_shiftLeft_eq_crcShifts (n : Nat) (a : Byte) :
    a.toNat <<< n = carrylessMul generator (crcQuotient n a) ^^^ (crcShifts n a).toNat := by
  induction n generalizing a with
  | zero => exact (Nat.zero_xor _).symm
  | succ n ih =>
    have first : a.toNat <<< (n + 1) =
        (if a.msb then generator else 0) <<< n ^^^ (crcShift a).toNat <<< n := by
      rw [Nat.add_comm, Nat.shiftLeft_add, Nat.shiftLeft_eq _ 1, Nat.pow_one, toNat_mul_two_eq_crcShift,
        Nat.shiftLeft_xor_distrib]
    have quotientBit : (if a.msb then generator else 0) <<< n = if a.msb then generator <<< n else 0 := by
      split_ifs
      · rfl
      · exact Nat.zero_shiftLeft n
    rw [first, ih, quotientBit, crcQuotient, carrylessMul, crcQuotient_length, crcShifts, Nat.xor_assoc]

/-- A product's leading coefficients and its last n add up apart. -/
theorem carrylessMul_append (p : Nat) (high low : List Bool) :
    carrylessMul p (high ++ low) = carrylessMul p high <<< low.length ^^^ carrylessMul p low := by
  induction high with
  | nil => rw [List.nil_append, carrylessMul, Nat.zero_shiftLeft, Nat.zero_xor]
  | cons c high ih =>
    rw [List.cons_append, carrylessMul, carrylessMul, ih, List.length_append, Nat.shiftLeft_xor_distrib, Nat.xor_assoc]
    congr 1
    split_ifs
    · exact Nat.shiftLeft_add p high.length low.length
    · exact (Nat.zero_shiftLeft _).symm

/-- A byte added below a number shifted by eight is a byte XORed to it. -/
theorem mul_add_toNat_eq_xor (a : Nat) (b : Byte) : a * 256 + b.toNat = a * 256 ^^^ b.toNat := by
  refine Nat.eq_of_testBit_eq fun i => ?_
  rw [Nat.mul_comm, Nat.testBit_two_pow_mul_add (i := 8) _ b.isLt, Nat.testBit_xor, Nat.testBit_two_pow_mul (i := 8)]
  split_ifs with low
  · simp [Nat.not_le.mpr low]
  · simp [Nat.le_of_not_lt low, BitVec.testBit_toNat]

theorem messageValue_concat (bytes : List Byte) (b : Byte) :
    messageValue (bytes ++ [b]) = messageValue bytes * 256 + b.toNat := by
  simp [messageValue]

/-- The checksum is what the division of the message, shifted by eight, leaves. -/
theorem exists_quotient (bytes : List Byte) : ∃ quotient : List Bool,
    messageValue bytes * 256 = carrylessMul generator quotient ^^^ (checksum bytes).toNat := by
  induction bytes using List.reverseRecOn with
  | nil => exact ⟨[], rfl⟩
  | append_singleton bytes b ih =>
    obtain ⟨quotient, division⟩ := ih
    refine ⟨quotient ++ crcQuotient 8 (checksum bytes ^^^ b), ?_⟩
    calc messageValue (bytes ++ [b]) * 256
        = (messageValue bytes * 256 ^^^ b.toNat) <<< 8 := by
          rw [messageValue_concat, mul_add_toNat_eq_xor, Nat.shiftLeft_eq]
      _ = (carrylessMul generator quotient ^^^ (checksum bytes ^^^ b).toNat) <<< 8 := by
          rw [division, Nat.xor_assoc, BitVec.toNat_xor]
      _ = carrylessMul generator quotient <<< 8 ^^^ (carrylessMul generator (crcQuotient 8 (checksum bytes ^^^ b)) ^^^
            (crcShifts 8 (checksum bytes ^^^ b)).toNat) := by
          rw [Nat.shiftLeft_xor_distrib, toNat_shiftLeft_eq_crcShifts]
      _ = carrylessMul generator (quotient ++ crcQuotient 8 (checksum bytes ^^^ b)) ^^^
            (checksum (bytes ++ [b])).toNat := by
          rw [carrylessMul_append, crcQuotient_length, checksum_concat, crc8Step_xor, Nat.xor_assoc]

end Sys2Proof.Machine

open Sys2Proof Sys2Proof.Machine

/-- Settles O15: the step is eight shifts of the XOR, each of which is injective. -/
theorem crcStepDependsOnXorAlone : Obligations.CrcStepDependsOnXorAlone := by
  refine ⟨fun acc b => ?_, crc8Step_zero_zero, by decide, fun _ _ same => crc8Step_right_injective 0x00 same⟩
  rw [crc8Step_xor, crc8Step_xor]
  exact congrArg (crcShifts 8) BitVec.zero_xor.symm

/-- Settles O16: every byte appends to the quotient the bits its eight shifts push out. -/
theorem checksumIsPolynomialRemainder : Obligations.ChecksumIsPolynomialRemainder := fun bytes s =>
  have ⟨quotient, division⟩ := exists_quotient bytes
  ⟨checksum bytes, quotient, exec_checksum bytes s, division⟩

/-- Settles O17: the fold is linear, from the XOR of zero and zero. -/
theorem checksumIsLinear : Obligations.ChecksumIsLinear := fun _ _ length =>
  foldl_crc8Step_zipWith_xor length 0x00 0x00

/-- Settles O18: the step from the checksum to zero determines its byte. -/
theorem checksumHasZeroResidue : Obligations.ChecksumHasZeroResidue :=
  checksum_concat_eq_zero_iff
end

section
/-! PROOF. The packed bytes in two more forms (spec/30_encoding.md R69, spec/41_frame_encoder.md R110): each as an
expression in one or two channels, and all of them as the bytes of one number. Both are read off the bit stream. -/

namespace Sys2Proof.Machine

/-! ### The number the channels make up (R110) -/

/-- The sum of the words, each at its place in the stream. -/
def streamValue {w : Nat} (words : List (BitVec w)) (n : Nat) : Nat :=
  ((List.range n).map fun i => (words.getD i 0).toNat * 2 ^ (w * i)).sum

theorem streamValue_succ {w : Nat} (words : List (BitVec w)) (n : Nat) :
    streamValue words (n + 1) = streamValue words n + (words.getD n 0).toNat <<< (w * n) := by
  simp [streamValue, List.range_succ, Nat.shiftLeft_eq]

/-- The places do not overlap: the number has the stream's bits, as far as n words reach. -/
theorem testBit_streamValue {w : Nat} (words : List (BitVec w)) (n s : Nat) :
    (streamValue words n).testBit s = (decide (s < w * n) && streamBit words s) := by
  induction n generalizing s with
  | zero => simp [streamValue]
  | succ n ih =>
    have below : streamValue words n < 2 ^ (w * n) := Nat.lt_pow_two_of_testBit _ fun i hi => by
      rw [ih, decide_eq_false (Nat.not_lt.mpr hi), Bool.false_and]
    rw [streamValue_succ, Nat.add_comm, Nat.shiftLeft_add_eq_or_of_lt below, Nat.testBit_or, Nat.testBit_shiftLeft, ih,
      BitVec.testBit_toNat, Nat.mul_succ]
    obtain inside | past := Nat.lt_or_ge s (w * n)
    · simp [Nat.not_le.mpr inside, inside, Nat.lt_add_right w inside]
    · obtain ⟨b, rfl⟩ := Nat.exists_eq_add_of_le past
      obtain inLast | beyond := Nat.lt_or_ge b w
      · simp [inLast, streamBit_mul_add words n inLast]
      · simp [Nat.not_lt.mpr beyond, BitVec.getLsbD_of_ge _ b beyond]

/-- The bytes of a number, low byte first, have its bits as far as they reach. -/
theorem streamBit_map_div (v : Nat) {n s : Nat} (inside : s < 8 * n) :
    streamBit ((List.range n).map fun k => BitVec.ofNat 8 (v / 2 ^ (8 * k))) s = v.testBit s := by
  have index : s / 8 < n := Nat.div_lt_of_lt_mul inside
  have low : s % 8 < 8 := Nat.mod_lt s (by decide)
  have byte : ((List.range n).map fun k => BitVec.ofNat 8 (v / 2 ^ (8 * k))).getD (s / 8) 0 =
      BitVec.ofNat 8 (v / 2 ^ (8 * (s / 8))) := by simp [index]
  rw [streamBit, byte, BitVec.getLsbD_ofNat, ← Nat.shiftRight_eq_div_pow, Nat.testBit_shiftRight, Nat.div_add_mod,
    decide_eq_true low, Bool.true_and]

theorem pack_eq_bytes {channels : List Channel} (h : channels.length = 16) :
    pack channels = (List.range 22).map fun k => BitVec.ofNat 8 (streamValue channels 16 / 2 ^ (8 * k)) := by
  refine eq_of_streamBit_eq (by simp [pack_length_of_length h]) fun s => ?_
  rw [streamBit_pack]
  obtain inside | past := Nat.lt_or_ge s 176
  · rw [streamBit_map_div _ inside, testBit_streamValue, decide_eq_true inside, Bool.true_and]
  · rw [streamBit_of_le (by decide) (by rwa [h]), streamBit_of_le (by decide) (by simpa using past)]

/-! ### One byte of the packed channels (R69) -/

theorem streamBit_map_range (ch : Nat → Channel) {i b : Nat} (hi : i < 16) (hb : b < 11) :
    streamBit ((List.range 16).map ch) (11 * i + b) = (ch i).getLsbD b := by
  rw [streamBit_mul_add _ i hb]
  simp [hi]

theorem getLsbD_byteAt_pack (channels : List Channel) (k : Nat) {b : Nat} (hb : b < 8) :
    (byteAt (pack channels) k).getLsbD b = streamBit channels (8 * k + b) := by
  rw [← streamBit_pack, streamBit_mul_add _ k hb]
  rfl

/-- A byte that starts o bits into channel i and ends in it. -/
theorem byteAt_pack_within (ch : Nat → Channel) {k i o : Nat} (place : 8 * k = 11 * i + o) (ends : o + 8 ≤ 11)
    (hi : i < 16) : byteAt (pack ((List.range 16).map ch)) k = (ch i).extractLsb' o 8 := by
  refine BitVec.eq_of_getLsbD_eq fun b hb => ?_
  rw [getLsbD_byteAt_pack _ k hb, place, Nat.add_assoc, streamBit_map_range ch hi (by omega), BitVec.getLsbD_extractLsb',
    decide_eq_true hb, Bool.true_and]

/-- A byte that starts with the last m bits of channel i and ends with the first n of the next. -/
theorem byteAt_pack_across (ch : Nat → Channel) {k i o m n : Nat} (place : 8 * k = 11 * i + o) (ends : o + m = 11)
    (width : n + m = 8) (hi : i + 1 < 16) : byteAt (pack ((List.range 16).map ch)) k =
      ((ch (i + 1)).extractLsb' 0 n ++ (ch i).extractLsb' o m).cast width := by
  refine BitVec.eq_of_getLsbD_eq fun b hb => ?_
  rw [getLsbD_byteAt_pack _ k hb, BitVec.getLsbD_cast, BitVec.getLsbD_append]
  split_ifs with low
  · rw [place, Nat.add_assoc, streamBit_map_range ch (Nat.lt_of_succ_lt hi) (by omega), BitVec.getLsbD_extractLsb',
      decide_eq_true low, Bool.true_and]
  · have high : 8 * k + b = 11 * (i + 1) + (b - m) := by omega
    have inNext : b - m < n := by omega
    rw [high, streamBit_map_range ch hi (by omega), BitVec.getLsbD_extractLsb', decide_eq_true inNext, Bool.true_and,
      Nat.zero_add]

end Sys2Proof.Machine

open Sys2Proof Sys2Proof.Machine

/-- Settles O24: each byte of the table lies within one channel or across two. -/
theorem packedBytesAreTheTable : Obligations.PackedBytesAreTheTable := by
  intro ch p
  have within {k i o : Nat} : 8 * k = 11 * i + o → o + 8 ≤ 11 → i < 16 → p k = (ch i).extractLsb' o 8 :=
    byteAt_pack_within ch
  have across {k i o m n : Nat} (place : 8 * k = 11 * i + o) (ends : o + m = 11) (width : n + m = 8)
      (hi : i + 1 < 16) : p k = ((ch (i + 1)).extractLsb' 0 n ++ (ch i).extractLsb' o m).cast width :=
    byteAt_pack_across ch place ends width hi
  exact ⟨within rfl (by decide) (by decide), across rfl rfl rfl (by decide), across rfl rfl rfl (by decide),
    within rfl (by decide) (by decide), across rfl rfl rfl (by decide), across rfl rfl rfl (by decide),
    across rfl rfl rfl (by decide), within rfl (by decide) (by decide), across rfl rfl rfl (by decide),
    across rfl rfl rfl (by decide), within rfl (by decide) (by decide), within rfl (by decide) (by decide),
    across rfl rfl rfl (by decide), across rfl rfl rfl (by decide), within rfl (by decide) (by decide),
    across rfl rfl rfl (by decide), across rfl rfl rfl (by decide), across rfl rfl rfl (by decide),
    within rfl (by decide) (by decide), across rfl rfl rfl (by decide), across rfl rfl rfl (by decide),
    within rfl (by decide) (by decide)⟩

/-- Settles O25: PACK keeps the bit stream, and the stream of 16 channels is the number they make up. -/
theorem packIsClosedForm : Obligations.PackIsClosedForm := fun _ => pack_eq_bytes
end

section
/-! PROOF. The packet-type rows (spec/43_telemetry_parser.md R160 to R166): each is PARSE of the frame it stands for, and
no layout reads beyond its required bytes. -/

namespace Sys2Proof.Machine

/-! ### Bytes beyond the required ones (R166) -/

theorem commitLinkStatistics_append {p : List Byte} (enough : 10 ≤ p.length) (surplus : List Byte) (snap : Snapshot) :
    commitLinkStatistics (p ++ surplus) snap = commitLinkStatistics p snap := by
  simp (disch := omega) only [commitLinkStatistics, byteAt_append_left]

theorem commitBattery_append {p : List Byte} (enough : 7 ≤ p.length) (surplus : List Byte) (snap : Snapshot) :
    commitBattery (p ++ surplus) snap = commitBattery p snap := by
  simp (disch := omega) only [commitBattery_eq, byteAt_append_left]

theorem commitGps_append {p : List Byte} (enough : 15 ≤ p.length) (surplus : List Byte) (snap : Snapshot) :
    commitGps (p ++ surplus) snap = commitGps p snap := by
  simp (disch := omega) only [commitGps_eq, byteAt_append_left]

/-- A type and the payload bytes it requires (R161 to R163). -/
def Requires (type : Byte) (required : Nat) : Prop :=
  (type = tLs ∧ required = 10) ∨ (type = tBat ∧ required = 7) ∨ (type = tGps ∧ required = 15)

/-- Behind the bytes its type requires a payload commits nothing more. -/
theorem commitPayload_append {type : Byte} {required : Nat} (requires : Requires type required) {p : List Byte}
    (enough : required ≤ p.length) (surplus : List Byte) (snap : Snapshot) :
    commitPayload type (p ++ surplus) snap = commitPayload type p snap := by
  have stillEnough : required ≤ (p ++ surplus).length :=
    enough.trans (List.sublist_append_left p surplus).length_le
  obtain ⟨rfl, rfl⟩ | ⟨rfl, rfl⟩ | ⟨rfl, rfl⟩ := requires
  · rw [commitPayload_tLs, commitPayload_tLs, if_pos stillEnough, if_pos enough, commitLinkStatistics_append enough]
  · rw [commitPayload_tBat, commitPayload_tBat, if_pos stillEnough, if_pos enough, commitBattery_append enough]
  · rw [commitPayload_tGps, commitPayload_tGps, if_pos stillEnough, if_pos enough, commitGps_append enough]

/-! ### The frame a row stands for (R160) -/

/-- PARSE of a composed frame commits the payload it was composed of. -/
theorem exec_parse_composeFrame {payload : List Byte} (h : payload.length ≤ 62) (type : Byte) (s : State) :
    exec (.parse (composeFrame type payload)) s =
      .next { s with snap := commitPayload type payload s.snap, result := some .done } :=
  exec_parse_of_commitPayload (frameValid_composeFrame h) (by rw [typeByte_composeFrame, payloadOf_composeFrame h])

theorem parsePayload_eq_exec_parse {payload : List Byte} (h : payload.length ≤ 62) (type : Byte) (s : State) :
    parsePayload type payload s = exec (.parse (composeFrame type payload)) s :=
  (parsePayload_of_length_le h type s).trans (exec_parse_composeFrame h type s).symm

/-! ### What a row commits, by its payload's elements (R161 to R164) -/

theorem getElem?_eq_some_byteAt {p : List Byte} {k : Nat} (inside : k < p.length) : p[k]? = some (byteAt p k) := by
  rw [byteAt_of_lt inside, List.getElem?_eq_getElem inside]

theorem commitLinkStatistics_eq {p : List Byte} (enough : 10 ≤ p.length) (snap : Snapshot) :
    commitLinkStatistics p snap = { snap with
      ls_uplink_rssi_1 := p[0]?, ls_uplink_rssi_2 := p[1]?, ls_uplink_link_quality := p[2]?,
      ls_uplink_snr := p[3]?.map BitVec.toInt, ls_active_antenna := p[4]?, ls_rf_mode := p[5]?,
      ls_uplink_tx_power := p[6]?, ls_downlink_rssi := p[7]?, ls_downlink_link_quality := p[8]?,
      ls_downlink_snr := p[9]?.map BitVec.toInt } := by
  simp (disch := omega) only [commitLinkStatistics, sext_toNat, getElem?_eq_some_byteAt, Option.map_some]

/-- A row whose type has no layout changes nothing but the result port. -/
theorem parsePayload_of_ne {type : Byte} (ls : type ≠ tLs) (bat : type ≠ tBat) (gps : type ≠ tGps)
    {payload : List Byte} (h : payload.length ≤ 62) (s : State) :
    parsePayload type payload s = .next (s.withResult .done) := by
  rw [parsePayload_of_length_le h, commitPayload_of_ne ls bat gps]
  rfl

/-- A payload no frame carries is refused, whatever the type. -/
theorem parsePayload_of_length_gt {payload : List Byte} (h : 62 < payload.length) (type : Byte) (s : State) :
    parsePayload type payload s = .refused .invalidFrame :=
  if_neg (Nat.not_le.mpr h)

end Sys2Proof.Machine

open Sys2Proof Sys2Proof.Machine

/-- Settles O46: PARSE commits the frame's payload, of which the surplus is not read. -/
theorem parseIgnoresSurplusBytes : Obligations.ParseIgnoresSurplusBytes := by
  intro type required payload surplus s (requires : Requires type required) exactly fits
  have whole : (payload ++ surplus).length ≤ 62 := by rwa [List.length_append]
  refine ⟨_, exec_parse_composeFrame whole type s, ?_⟩
  rw [commitPayload_append requires exactly.ge]
  exact exec_parse_composeFrame (by omega) type s

/-- Settles O47: each row and PARSE of its composed frame commit the same payload. -/
theorem packetTypeRowsAreParse : Obligations.PacketTypeRowsAreParse := fun _ s h =>
  have row type := parsePayload_eq_exec_parse h type s
  ⟨row tLs, row tBat, row tGps, row tRc, row, fun _ => frameValid_composeFrame h⟩

/-- Settles O48: the payload's length decides between the commit and the refusal, and within the commit each layout's
length test decides whether its fields are written. -/
theorem packetTypeRowsComplete : Obligations.PacketTypeRowsComplete := by
  intro payload s
  refine ⟨fun fits => ?completes, fun long => ?refused⟩
  case completes =>
    have row type := parsePayload_of_length_le fits type s
    refine ⟨⟨commitPayload tLs payload s.snap, row tLs, fun short => ?lsShort, fun enough => ?lsLong⟩,
      ⟨commitPayload tBat payload s.snap, row tBat, fun short => ?batShort, fun enough => ?batLong⟩,
      ⟨commitPayload tGps payload s.snap, row tGps, fun short => ?gpsShort, fun enough => ?gpsLong⟩,
      parsePayload_of_ne (by decide) (by decide) (by decide) fits s, fun type other => ?other⟩
    case lsShort | batShort | gpsShort => exact if_neg (Nat.not_le.mpr short)
    case lsLong => exact (if_pos enough).trans (commitLinkStatistics_eq enough s.snap)
    case batLong =>
      rw [getElem?_eq_some_byteAt enough]
      exact (if_pos enough).trans (commitBattery_eq payload s.snap)
    case gpsLong => exact (if_pos enough).trans (commitGps_eq payload s.snap)
    case other =>
      obtain ⟨ls, bat, gps, -⟩ := (isOtherType_iff type).mp other
      exact parsePayload_of_ne ls bat gps fits s
  case refused =>
    have row type := parsePayload_of_length_gt long type s
    exact ⟨row tLs, row tBat, row tGps, row tRc, row⟩
end
